-- ==== Sys2Proof/Word.lean ====
section
/-! DEFINITION. The word types of the block (spec 00_scope R7): every value is unsigned. -/

namespace Sys2Proof

/-- A byte: one transfer on `D[7:0]`, a register index, the field `F`. -/
abbrev Byte := BitVec 8

/-- A 16-bit value: a coordinate, a colour, a register value (10_state R21). -/
abbrev Word := BitVec 16

/-- One touch reading as the response port carries it (10_state R32: 12 bits each). -/
abbrev Reading := BitVec 12

/-- The 96-bit host command word `CMD[95:0]` (30_encoding R80). -/
abbrev CmdWord := BitVec 96

/-- A level of a signal, 0 (`false`) or 1 (`true`) (00_scope R7); `1 - v` is `!v`. -/
abbrev Level := Bool

end Sys2Proof
end

