-- ==== Sys2Proof/Syntax.lean ====
section
/-! DEFINITION. The host commands of 30_encoding R82, their mnemonics, and assembly lines (R88). -/

namespace Sys2Proof

/-- The abstract commands, one constructor per row of `opcode_table.json`. Every operand has exactly
the width of the field or slice it is taken from (30_encoding R83), so each term is well formed. -/
inductive Instr
  /-- `WRCMD`: `cmd` is A. -/
  | wrcmd (cmd : Word)
  /-- `WRDATA`: `val` is A. -/
  | wrdata (val : Word)
  /-- `WRCMDDATA`: `cmd` is A, `dataHigh` is B[15:8], `dataLow` is B[7:0]. -/
  | wrcmddata (cmd : Word) (dataHigh dataLow : Byte)
  /-- `WRDATA88`: `hi` is A[15:8], `lo` is A[7:0]. -/
  | wrdata88 (hi lo : Byte)
  /-- `WRREG`: `reg` is A[7:0], `val` is B. -/
  | wrreg (reg : Byte) (val : Word)
  /-- `SETORIENT`: `o` is F[1:0]. -/
  | setorient (o : BitVec 2)
  /-- `ORIENTXY`: `x` is A, `y` is B. -/
  | orientxy (x y : Word)
  /-- `SETWINDOW`: the corners are A, B and C, D. -/
  | setwindow (x1 y1 x2 y2 : Word)
  /-- `CLOSEWINDOW`: no operand. -/
  | closewindow
  /-- `SETPOINT`: `x` is A, `y` is B, `color` is E. -/
  | setpoint (x y color : Word)
  /-- `FASTFILL`: the corners are A, B and C, D, `color` is E. -/
  | fastfill (x1 y1 x2 y2 color : Word)
  /-- `BEGIN`: no operand. -/
  | begin
  /-- `SETBACKLIGHT`: `flag` is F[0]. -/
  | setbacklight (flag : BitVec 1)
  /-- `SETINTENSITY`: `level` is F. -/
  | setintensity (level : Byte)
  /-- `WHOAMI`: no operand. -/
  | whoami
  /-- `READTOUCH`: no operand. -/
  | readtouch
deriving DecidableEq, Repr

/-- The mnemonics of R82. -/
inductive Mnemonic
  | wrcmd | wrdata | wrcmddata | wrdata88 | wrreg
  | setorient | orientxy | setwindow | closewindow | setpoint | fastfill
  | begin | setbacklight | setintensity | whoami | readtouch
deriving DecidableEq, Repr

/-- The mnemonic of a command. -/
def Instr.mnemonic : Instr → Mnemonic
  | .wrcmd .. => .wrcmd
  | .wrdata .. => .wrdata
  | .wrcmddata .. => .wrcmddata
  | .wrdata88 .. => .wrdata88
  | .wrreg .. => .wrreg
  | .setorient .. => .setorient
  | .orientxy .. => .orientxy
  | .setwindow .. => .setwindow
  | .closewindow => .closewindow
  | .setpoint .. => .setpoint
  | .fastfill .. => .fastfill
  | .begin => .begin
  | .setbacklight .. => .setbacklight
  | .setintensity .. => .setintensity
  | .whoami => .whoami
  | .readtouch => .readtouch

/-- What a line of assembly names: a command of R82 or one of the two pseudo-instructions of R88. -/
inductive AsmOp
  | cmd (m : Mnemonic)
  | sleep
  | wake
deriving DecidableEq, Repr

/-- A line of assembly after lexing: the operation and its operands as the numbers written (R88). -/
structure AsmLine where
  op : AsmOp
  operands : List Nat
deriving DecidableEq, Repr

/-- The widths in bits of the operands a line of R88 carries, in the order of R82's "operands" column.
An operand that is a slice of a field is written as the whole field (`WRREG 0x0122, ...`, 95_test_vectors
R-2), but for the two bytes of `WRCMDDATA` and `WRDATA88`. -/
def AsmOp.widths : AsmOp → List Nat
  | .cmd .wrcmd => [16]
  | .cmd .wrdata => [16]
  | .cmd .wrcmddata => [16, 8, 8]
  | .cmd .wrdata88 => [8, 8]
  | .cmd .wrreg => [16, 16]
  | .cmd .setorient => [8]
  | .cmd .orientxy => [16, 16]
  | .cmd .setwindow => [16, 16, 16, 16]
  | .cmd .closewindow => []
  | .cmd .setpoint => [16, 16, 16]
  | .cmd .fastfill => [16, 16, 16, 16, 16]
  | .cmd .begin => []
  | .cmd .setbacklight => [8]
  | .cmd .setintensity => [8]
  | .cmd .whoami => []
  | .cmd .readtouch => []
  | .sleep => []
  | .wake => []

end Sys2Proof
end

