-- ==== Sys2Proof/Decode.lean ====
section
/-! DEFINITION. The command word (30_encoding R80 to R87): its fields, the decoder, total on any word,
and the encoder. -/

namespace Sys2Proof

/-- `OP`, bits 95:88 (R81). -/
def CmdWord.op (w : CmdWord) : Byte := w.extractLsb' 88 8

/-- `F`, bits 87:80 (R81). -/
def CmdWord.fieldF (w : CmdWord) : Byte := w.extractLsb' 80 8

/-- `A`, bits 79:64 (R81). -/
def CmdWord.fieldA (w : CmdWord) : Word := w.extractLsb' 64 16

/-- `B`, bits 63:48 (R81). -/
def CmdWord.fieldB (w : CmdWord) : Word := w.extractLsb' 48 16

/-- `C`, bits 47:32 (R81). -/
def CmdWord.fieldC (w : CmdWord) : Word := w.extractLsb' 32 16

/-- `D`, bits 31:16 (R81). -/
def CmdWord.fieldD (w : CmdWord) : Word := w.extractLsb' 16 16

/-- `E`, bits 15:0 (R81). -/
def CmdWord.fieldE (w : CmdWord) : Word := w.extractLsb' 0 16

/-- `OP ∥ F ∥ A ∥ B ∥ C ∥ D ∥ E` (R81, R88). -/
def CmdWord.make (op f : Byte) (a b c d e : Word) : CmdWord := op ++ f ++ a ++ b ++ c ++ d ++ e

/-- The opcode numbers of R82. -/
def Mnemonic.opcode : Mnemonic → Byte
  | .wrcmd => 0x01
  | .wrdata => 0x02
  | .wrcmddata => 0x03
  | .wrdata88 => 0x04
  | .wrreg => 0x10
  | .setorient => 0x20
  | .orientxy => 0x21
  | .setwindow => 0x22
  | .closewindow => 0x23
  | .setpoint => 0x24
  | .fastfill => 0x25
  | .begin => 0x30
  | .setbacklight => 0x31
  | .setintensity => 0x32
  | .whoami => 0x33
  | .readtouch => 0x34

/-- The commands in the order of R82. -/
def Mnemonic.all : List Mnemonic :=
  [.wrcmd, .wrdata, .wrcmddata, .wrdata88, .wrreg, .setorient, .orientxy, .setwindow, .closewindow,
    .setpoint, .fastfill, .begin, .setbacklight, .setintensity, .whoami, .readtouch]

/-- The command an opcode selects; `none` for the reserved values of R85. -/
def Mnemonic.ofOpcode (op : Byte) : Option Mnemonic := Mnemonic.all.find? fun m => m.opcode == op

/-- The mask of every row of `opcode_table.json`: "the decoder matches on `OP` alone" (R84, R99). -/
def Mnemonic.mask : CmdWord := 0xFF0000000000000000000000

/-- The pattern of a row: `OP` shifted left by 88 bits (R99). -/
def Mnemonic.pattern (m : Mnemonic) : CmdWord := m.opcode.setWidth 96 <<< 88

/-- The bits a command reads: `OP` and its operands (R82, R83). -/
def Mnemonic.readMask : Mnemonic → CmdWord
  | .wrcmd => 0xFF00FFFF0000000000000000
  | .wrdata => 0xFF00FFFF0000000000000000
  | .wrcmddata => 0xFF00FFFFFFFF000000000000
  | .wrdata88 => 0xFF00FFFF0000000000000000
  | .wrreg => 0xFF0000FFFFFF000000000000
  | .setorient => 0xFF0300000000000000000000
  | .orientxy => 0xFF00FFFFFFFF000000000000
  | .setwindow => 0xFF00FFFFFFFFFFFFFFFF0000
  | .closewindow => 0xFF0000000000000000000000
  | .setpoint => 0xFF00FFFFFFFF00000000FFFF
  | .fastfill => 0xFF00FFFFFFFFFFFFFFFFFFFF
  | .begin => 0xFF0000000000000000000000
  | .setbacklight => 0xFF0100000000000000000000
  | .setintensity => 0xFFFF00000000000000000000
  | .whoami => 0xFF0000000000000000000000
  | .readtouch => 0xFF0000000000000000000000

/-- Operand assembly (R83): fields and slices of fields, nothing extended, scaled or shifted. -/
def Mnemonic.build (m : Mnemonic) (w : CmdWord) : Instr :=
  match m with
  | .wrcmd => .wrcmd w.fieldA
  | .wrdata => .wrdata w.fieldA
  | .wrcmddata => .wrcmddata w.fieldA (w.fieldB.extractLsb' 8 8) (w.fieldB.extractLsb' 0 8)
  | .wrdata88 => .wrdata88 (w.fieldA.extractLsb' 8 8) (w.fieldA.extractLsb' 0 8)
  | .wrreg => .wrreg (w.fieldA.extractLsb' 0 8) w.fieldB
  | .setorient => .setorient (w.fieldF.extractLsb' 0 2)
  | .orientxy => .orientxy w.fieldA w.fieldB
  | .setwindow => .setwindow w.fieldA w.fieldB w.fieldC w.fieldD
  | .closewindow => .closewindow
  | .setpoint => .setpoint w.fieldA w.fieldB w.fieldE
  | .fastfill => .fastfill w.fieldA w.fieldB w.fieldC w.fieldD w.fieldE
  | .begin => .begin
  | .setbacklight => .setbacklight (w.fieldF.extractLsb' 0 1)
  | .setintensity => .setintensity w.fieldF
  | .whoami => .whoami
  | .readtouch => .readtouch

/-- Why a word has no command. -/
inductive DecodeError
  /-- an `OP` that is not in the command table (R85) -/
  | reservedOpcode (op : Byte)
deriving DecidableEq, Repr

/-- The decoder: every word is a command or is rejected by name. Fields the command does not read are
ignored (R84); nothing but the word decides how it is read (R87). -/
def decode (w : CmdWord) : Except DecodeError Instr :=
  match Mnemonic.ofOpcode w.op with
  | some m => .ok (m.build w)
  | none => .error (.reservedOpcode w.op)

/-- The word of a command, "with unread fields written as zero" (R88). -/
def encode : Instr → CmdWord
  | .wrcmd cmd => .make 0x01 0 cmd 0 0 0 0
  | .wrdata val => .make 0x02 0 val 0 0 0 0
  | .wrcmddata cmd dataHigh dataLow => .make 0x03 0 cmd (dataHigh ++ dataLow) 0 0 0
  | .wrdata88 hi lo => .make 0x04 0 (hi ++ lo) 0 0 0 0
  | .wrreg reg val => .make 0x10 0 (reg.setWidth 16) val 0 0 0
  | .setorient o => .make 0x20 (o.setWidth 8) 0 0 0 0 0
  | .orientxy x y => .make 0x21 0 x y 0 0 0
  | .setwindow x1 y1 x2 y2 => .make 0x22 0 x1 y1 x2 y2 0
  | .closewindow => .make 0x23 0 0 0 0 0 0
  | .setpoint x y color => .make 0x24 0 x y 0 0 color
  | .fastfill x1 y1 x2 y2 color => .make 0x25 0 x1 y1 x2 y2 color
  | .begin => .make 0x30 0 0 0 0 0 0
  | .setbacklight flag => .make 0x31 (flag.setWidth 8) 0 0 0 0 0
  | .setintensity level => .make 0x32 level 0 0 0 0 0
  | .whoami => .make 0x33 0 0 0 0 0 0
  | .readtouch => .make 0x34 0 0 0 0 0 0

/-- A table row's number of `nbits` bits as a command word: a command is one 96-bit word, so its bit 0
is bit 0 of `CMD[95:0]`, and the bits above `nbits` are 0. -/
def tableWord (nbits w : Nat) : CmdWord := BitVec.ofNat 96 (w % 2 ^ nbits)

/-- The command the decoder reads from a table row's number. -/
def decodeTableWord (nbits w : Nat) : Option Instr :=
  match decode (tableWord nbits w) with
  | .ok i => some i
  | .error _ => none

end Sys2Proof
end

