-- ==== Sys2Proof/Config.lean ====
section
/-! DEFINITION. The configuration record `cfg` of 00_scope R5 as data, and the values the spec leaves
open as uninterpreted constants. The decided numbers stand in `Machine/Parameters.lean`. -/

namespace Sys2Proof

/-- `RESET_MODE`: whether the block has an RST pin and pulses it (44_lifecycle R202). -/
inductive ResetMode
  | hardwired
  | pulsed
deriving DecidableEq, Repr, Inhabited

/-- `PORT_STRATEGY`: how logical signals reach physical outputs (40_port_abstraction R117, R118). -/
inductive PortStrategy
  | generic
  | direct
deriving DecidableEq, Repr, Inhabited

/-- `CMD_XFERS`: the number of transfers that carry a command, 1 or 2 (00_scope R5). -/
inductive CmdXfers
  | one
  | two
deriving DecidableEq, Repr, Inhabited

/-- `ADC_FULL_SCALE`: "1023 or 4095" (00_scope R5, 60_exceptions R233). -/
inductive AdcScale
  | bits10
  | bits12
deriving DecidableEq, Repr, Inhabited

/-- A step of `INIT_SEQ` (30_encoding R98): a register write, or a wait in nanoseconds. -/
inductive InitStep
  | write (reg : Byte) (val : Word)
  | delay (t : Nat)
deriving DecidableEq, Repr, Inhabited

/-- The physical place of one logical signal: an output register and a bit of it (R118). -/
structure PinPos where
  port : Nat
  bit : Nat
deriving DecidableEq, Repr, Inhabited

/-- `PINMAP`: the place of each logical signal (00_scope R5). `rst` means something only when
`RESET_MODE` is `pulsed`. -/
structure PinMap where
  cs : PinPos
  dc : PinPos
  wr : PinPos
  rd : PinPos
  rst : PinPos
  d0 : PinPos
  d1 : PinPos
  d2 : PinPos
  d3 : PinPos
  d4 : PinPos
  d5 : PinPos
  d6 : PinPos
  d7 : PinPos
deriving DecidableEq, Repr, Inhabited

/-- The touch-pin assignment: "4 analog-capable pins", two for each plate (60_exceptions R231), named by
their places as the signals are (log entry 28). -/
structure TouchPinMap where
  xFirst : PinPos
  xSecond : PinPos
  yFirst : PinPos
  ySecond : PinPos
deriving DecidableEq, Repr, Inhabited

/-- What an electrode can be made to do (60_exceptions R231). -/
inductive ElectrodeState
  | high
  | low
  | floating
  | sampled
deriving DecidableEq, Repr, Inhabited

/-- What each of the four electrodes does (60_exceptions R231). -/
structure Electrodes where
  xFirst : ElectrodeState
  xSecond : ElectrodeState
  yFirst : ElectrodeState
  ySecond : ElectrodeState
deriving DecidableEq, Repr, Inhabited

/-- `REGMAP`: the names of 30_encoding R93, each with its 8-bit address. -/
structure RegMap where
  deviceId : Byte
  oscStart : Byte
  outputCtrl : Byte
  lcdDriveAc : Byte
  pwrCtrl1 : Byte
  displayCtrl : Byte
  frameCycle : Byte
  pwrCtrl2 : Byte
  pwrCtrl3 : Byte
  pwrCtrl4 : Byte
  gateScanStart : Byte
  sleepMode : Byte
  entryMode : Byte
  pwrCtrl5 : Byte
  ramData : Byte
  gamma1 : Byte
  gamma2 : Byte
  gamma3 : Byte
  gamma4 : Byte
  gamma5 : Byte
  gamma6 : Byte
  gamma7 : Byte
  gamma8 : Byte
  gamma9 : Byte
  gamma10 : Byte
  vRamPos : Byte
  hRamStart : Byte
  hRamEnd : Byte
  xRamAddr : Byte
  yRamAddr : Byte
  /-- used only when `VWIN_PACKED` is false; its address is OPEN -/
  vRamStart : Byte
  /-- used only when `VWIN_PACKED` is false; its address is OPEN -/
  vRamEnd : Byte
deriving DecidableEq, Repr, Inhabited

/-- The configuration record `cfg` (00_scope R5), one field per row of its table. -/
structure Cfg where
  w : Nat
  h : Nat
  csActive : Level
  dcCommand : Level
  wrIdle : Level
  rdIdle : Level
  rstActive : Level
  dcIdle : Level
  dIdle : Byte
  cmdXfers : CmdXfers
  fillOneBracket : Bool
  vwinPacked : Bool
  regmap : RegMap
  initSeq : List InitStep
  sleepIn : Word
  sleepOut : Word
  /-- nanoseconds -/
  tRstLow : Nat
  /-- nanoseconds -/
  tSlpout : Nat
  resetMode : ResetMode
  clearColor : Word
  hasTouch : Bool
  adcFullScale : AdcScale
  touchNoise : Nat
  /-- `none` is the unbounded retry of R234 -/
  touchRetryCap : Option Nat
  touchPins : Option TouchPinMap
  portStrategy : PortStrategy
  /-- the base-board mapping (R121) -/
  pinBase : PinMap
  /-- the add-on-board mapping (R121) -/
  pinAddOn : PinMap
  /-- the strap that selects the add-on mapping (R121) -/
  altBoard : Bool
  idString : String
  /-- OPEN, read by no rule (70_reset_and_hazards R270), like the three below -/
  tWrLow : Nat
  tWrHigh : Nat
  tSetup : Nat
  tHold : Nat
deriving DecidableEq, Repr, Inhabited

/-- The parameters that 92_eei_decisions lists as left OPEN, less `INIT_SEQ` (log entry 3). -/
structure OpenParams where
  resetMode : ResetMode
  idString : String
  adcFullScale : AdcScale
  portStrategy : PortStrategy
  pinBase : PinMap
  pinAddOn : PinMap
  altBoard : Bool
  touchPins : Option TouchPinMap
  vRamStart : Byte
  vRamEnd : Byte
  tWrLow : Nat
  tWrHigh : Nat
  tSetup : Nat
  tHold : Nat
deriving DecidableEq, Repr, Inhabited

/-- FREE VALUE (log entry 2): what the OPEN parameters are in the machine `State.reset` describes. -/
opaque Config.openParams : OpenParams

/-- FREE VALUE (log entry 8): the reading the converter gives at index `n`, when the state lists none. -/
opaque Config.adcReading : Nat → Reading

/-- FREE VALUE (log entry 9): how far above the smaller of two agreeing samples the reported value is. -/
opaque Config.touchPick : Nat → Nat

/-- FREE VALUE (log entry 10): whether the first electrode of a driven pair is the high one. -/
opaque Config.touchPolarity : Nat → Bool

/-- FREE VALUE (log entry 28): whether the second electrode of the floating pair is the sampled one. -/
opaque Config.touchSampled : Nat → Bool

/-- FREE VALUE (log entry 28): what the electrodes do in the pressure phase. -/
opaque Config.touchPressure : Nat → Electrodes

/-- FREE VALUE (log entry 11): the touch calibration constants that `BEGIN` sets (10_state R36). -/
opaque Config.touchCalibration : List Nat

/-- `1 - CS_ACTIVE`: CS inactive. -/
def Cfg.csInactive (c : Cfg) : Level := !c.csActive

/-- `1 - DC_COMMAND`: "data is the other level" (00_scope R5). -/
def Cfg.dcData (c : Cfg) : Level := !c.dcCommand

/-- `1 - RST_ACTIVE`: RST inactive. -/
def Cfg.rstInactive (c : Cfg) : Level := !c.rstActive

/-- The mapping in force (40_port_abstraction R121). -/
def Cfg.pinmap (c : Cfg) : PinMap := if c.altBoard then c.pinAddOn else c.pinBase

/-- The full scale as a number. -/
def AdcScale.max : AdcScale → Nat
  | .bits10 => 1023
  | .bits12 => 4095

/-- The places of `D[0]` to `D[7]`, in that order. -/
def PinMap.data (m : PinMap) : List PinPos := [m.d0, m.d1, m.d2, m.d3, m.d4, m.d5, m.d6, m.d7]

/-- The addresses of gamma control 1 to 10, in that order. -/
def RegMap.gammas (r : RegMap) : List Byte :=
  [r.gamma1, r.gamma2, r.gamma3, r.gamma4, r.gamma5, r.gamma6, r.gamma7, r.gamma8, r.gamma9, r.gamma10]

/-- The addresses of power control 1 to 5. -/
def RegMap.powers (r : RegMap) : List Byte := [r.pwrCtrl1, r.pwrCtrl2, r.pwrCtrl3, r.pwrCtrl4, r.pwrCtrl5]

end Sys2Proof
end

