-- ==== Sys2Proof/WellFormed.lean ====
section
/-! DEFINITION. Well-formedness. A term of `Instr` carries its operand widths in its types and needs no
check. What is checked: a line of assembly (30_encoding R88) and a configuration (00_scope R5). -/

namespace Sys2Proof

/-- The line has the number of operands of R82. -/
def AsmLine.countOk (l : AsmLine) : Bool := l.operands.length == l.op.widths.length

/-- Each operand fits its field: "A value of width N is a natural number below 2^N" (00_scope R7). -/
def AsmLine.rangesOk (l : AsmLine) : Bool := (l.operands.zip l.op.widths).all fun p => decide (p.1 < 2 ^ p.2)

/-- A line of assembly that has a command word. -/
def AsmLine.wellFormed (l : AsmLine) : Bool := l.countOk && l.rangesOk

/-- The panel has a size, a 16-bit coordinate reaches every column and row, and a packed vertical
window needs at most 256 rows (30_encoding R94 to R96, 10_state R21). -/
def Cfg.sizeOk (c : Cfg) : Bool :=
  decide (0 < c.w) && decide (0 < c.h) && decide (c.w ≤ 65536) && decide (c.h ≤ 65536) &&
    (!c.vwinPacked || decide (c.h ≤ 256))

/-- WR idles high: it is "pulsed low then high" (00_scope R5, 40_port_abstraction R115). -/
def Cfg.strobeOk (c : Cfg) : Bool := c.wrIdle

/-- "A configuration with `cfg.T_RST_LOW < 15 000` or `cfg.T_SLPOUT < 30 000 000` is not an instance of
this block" (60_exceptions R227). -/
def Cfg.delaysOk (c : Cfg) : Bool := decide (15000 ≤ c.tRstLow) && decide (30000000 ≤ c.tSlpout)

/-- The registers R93 names, each once; `V_RAM_START` and `V_RAM_END` only where they are used. `DEVICE_ID`
is left out: it shares its address with `OSC_START` and is never sent (30_encoding R93). -/
def Cfg.namedRegs (c : Cfg) : List Byte :=
  [c.regmap.oscStart, c.regmap.outputCtrl, c.regmap.lcdDriveAc, c.regmap.displayCtrl, c.regmap.frameCycle,
    c.regmap.gateScanStart, c.regmap.sleepMode, c.regmap.entryMode, c.regmap.ramData, c.regmap.vRamPos,
    c.regmap.hRamStart, c.regmap.hRamEnd, c.regmap.xRamAddr, c.regmap.yRamAddr] ++
    (if c.vwinPacked then [] else [c.regmap.vRamStart, c.regmap.vRamEnd]) ++ c.regmap.powers ++ c.regmap.gammas

/-- Each named register has an address of its own (20_memory R51; log entry 20). -/
def Cfg.regsOk (c : Cfg) : Bool := decide c.namedRegs.Nodup

/-- A write to a register of the power group (42_register_interface R153 G2). -/
def InitStep.isPower (r : RegMap) : InitStep → Bool
  | .write reg _ => r.powers.contains reg
  | .delay _ => false

/-- A VCOM write: R153 leaves open which registers it goes to; they are in the table (20_memory R51), and
neither the sleep mode nor the RAM data port (log entry 20). -/
def Cfg.isVcom (c : Cfg) : InitStep → Bool
  | .write reg _ => c.namedRegs.contains reg && reg != c.regmap.sleepMode && reg != c.regmap.ramData
  | .delay _ => false

/-- A write to the register given. -/
def InitStep.writesTo (reg : Byte) : InitStep → Bool
  | .write r _ => r == reg
  | .delay _ => false

/-- G9 of R153: the initial full-screen window. -/
def Cfg.initWindow (c : Cfg) : List InitStep :=
  [.write c.regmap.hRamStart 0, .write c.regmap.hRamEnd (BitVec.ofNat 16 (c.w - 1)),
    .write c.regmap.vRamPos (BitVec.ofNat 8 (c.h - 1) ++ (0 : Byte)),
    .write c.regmap.xRamAddr 0, .write c.regmap.yRamAddr 0]

/-- G8 of R153: ten writes, to gamma control 1 through 10 in that order. -/
def Cfg.isGammaGroup (c : Cfg) (l : List InitStep) : Bool :=
  l.length == 10 && (l.zip c.regmap.gammas).all fun p => p.1.writesTo p.2

/-- G7, G8 and G9 of R153: one or more VCOM writes (log entry 20), gamma, the window. -/
def Cfg.isInitTail (c : Cfg) (l : List InitStep) : Bool :=
  decide (16 ≤ l.length) && (l.take (l.length - 15)).all c.isVcom &&
    c.isGammaGroup ((l.drop (l.length - 15)).take 10) && l.drop (l.length - 5) == c.initWindow

/-- G3 to G9 of R153. -/
def Cfg.isInitRest (c : Cfg) : List InitStep → Bool
  | .write out _ :: .write slp v :: .delay t :: .write ent _ :: .write dsp _ :: tl =>
    out == c.regmap.outputCtrl && slp == c.regmap.sleepMode && v == c.sleepOut && t == c.tSlpout &&
      ent == c.regmap.entryMode && dsp == c.regmap.displayCtrl && c.isInitTail tl
  | _ => false

/-- The shape every `INIT_SEQ` has (42_register_interface R153): G1, G2, then G3 to G9. -/
def Cfg.initSeqOk (c : Cfg) : Bool :=
  match c.initSeq with
  | .write osc _ :: tl => osc == c.regmap.oscStart && c.isInitRest (tl.dropWhile (InitStep.isPower c.regmap))
  | _ => false

/-- The places a mapping gives to the signals the block has: 13, or 12 when hardwired (R110). -/
def PinMap.places (m : PinMap) (mode : ResetMode) : List PinPos :=
  [m.cs, m.dc, m.wr, m.rd] ++ (match mode with | .pulsed => [m.rst] | .hardwired => []) ++ m.data

/-- Each signal has a place of its own (R117: "maps 1:1 to an independent digital output pin"). -/
def PinMap.ok (m : PinMap) (mode : ResetMode) : Bool := decide (m.places mode).Nodup

/-- Both boards' mappings are sound. -/
def Cfg.pinsOk (c : Cfg) : Bool := c.pinBase.ok c.resetMode && c.pinAddOn.ok c.resetMode

/-- The places of the four electrodes. -/
def TouchPinMap.places (m : TouchPinMap) : List PinPos := [m.xFirst, m.xSecond, m.yFirst, m.ySecond]

/-- Four pins, "separate from the 13 signals of the display bus" on either board (60_exceptions R231). -/
def Cfg.touchPinsOk (c : Cfg) (m : TouchPinMap) : Bool :=
  decide (m.places ++ c.pinBase.places c.resetMode).Nodup &&
    decide (m.places ++ c.pinAddOn.places c.resetMode).Nodup

/-- "When `cfg.HAS_TOUCH` the configuration holds" a touch-pin assignment (60_exceptions R231). -/
def Cfg.touchOk (c : Cfg) : Bool := !c.hasTouch || c.touchPins.any c.touchPinsOk

/-- An instance of this block. -/
def Cfg.valid (c : Cfg) : Bool :=
  c.sizeOk && c.strobeOk && c.delaysOk && c.regsOk && c.initSeqOk && c.pinsOk && c.touchOk

end Sys2Proof
end

