-- ==== Sys2Proof/Machine/Parameters.lean ====
section
/-! DEFINITION. The numbers of the configuration: the decided values of 00_scope R5, the register map of
30_encoding R93, the default start-up list of 42_register_interface R155. Every value the spec marks
"from general knowledge" stands here and nowhere else. -/

namespace Sys2Proof

/-- The addresses of R93; those of `V_RAM_START` and `V_RAM_END` are OPEN. -/
def RegMap.decided (vRamStart vRamEnd : Byte) : RegMap where
  deviceId := 0x00
  oscStart := 0x00
  outputCtrl := 0x01
  lcdDriveAc := 0x02
  pwrCtrl1 := 0x03
  displayCtrl := 0x07
  frameCycle := 0x0B
  pwrCtrl2 := 0x0C
  pwrCtrl3 := 0x0D
  pwrCtrl4 := 0x0E
  gateScanStart := 0x0F
  sleepMode := 0x10
  entryMode := 0x11
  pwrCtrl5 := 0x1E
  ramData := 0x22
  gamma1 := 0x30
  gamma2 := 0x31
  gamma3 := 0x32
  gamma4 := 0x33
  gamma5 := 0x34
  gamma6 := 0x35
  gamma7 := 0x36
  gamma8 := 0x37
  gamma9 := 0x3A
  gamma10 := 0x3B
  vRamPos := 0x44
  hRamStart := 0x45
  hRamEnd := 0x46
  xRamAddr := 0x4E
  yRamAddr := 0x4F
  vRamStart := vRamStart
  vRamEnd := vRamEnd

/-- The initial full-screen window of the default list, for 320 by 240 (R155, steps 20 to 24). -/
def defaultInitWindow (r : RegMap) : List InitStep :=
  [.write r.hRamStart 0x0000, .write r.hRamEnd 0x013F, .write r.vRamPos 0xEF00,
    .write r.xRamAddr 0x0000, .write r.yRamAddr 0x0000]

/-- The gamma group of the default list (R155, steps 10 to 19). -/
def defaultInitGamma (r : RegMap) : List InitStep :=
  [.write r.gamma1 0x0000, .write r.gamma2 0x0303, .write r.gamma3 0x0407, .write r.gamma4 0x0301,
    .write r.gamma5 0x0301, .write r.gamma6 0x0403, .write r.gamma7 0x0707, .write r.gamma8 0x0400,
    .write r.gamma9 0x0A00, .write r.gamma10 0x1000]

/-- `DEFAULT_INIT_SEQ` (R155), 25 steps. -/
def defaultInitSeq (r : RegMap) : List InitStep :=
  [.write r.oscStart 0x0001, .write r.pwrCtrl2 0x0005, .write r.pwrCtrl3 0x000A,
    .write r.outputCtrl 0x30EF, .write r.sleepMode 0x0000, .delay 31000000, .write r.entryMode 0x6830,
    .write r.displayCtrl 0x0033, .write r.pwrCtrl4 0x2E00, .write r.pwrCtrl5 0x00B2] ++
    defaultInitGamma r ++ defaultInitWindow r

/-- Thirteen places in one output register; it stands in for an OPEN mapping that is none (log entry 2). -/
def PinMap.straight : PinMap where
  d0 := ⟨0, 0⟩
  d1 := ⟨0, 1⟩
  d2 := ⟨0, 2⟩
  d3 := ⟨0, 3⟩
  d4 := ⟨0, 4⟩
  d5 := ⟨0, 5⟩
  d6 := ⟨0, 6⟩
  d7 := ⟨0, 7⟩
  cs := ⟨0, 8⟩
  dc := ⟨0, 9⟩
  wr := ⟨0, 10⟩
  rd := ⟨0, 11⟩
  rst := ⟨0, 12⟩

/-- An OPEN mapping, where it gives each signal a place of its own (R117). -/
def PinMap.orStraight (m : PinMap) (mode : ResetMode) : PinMap := if m.ok mode then m else PinMap.straight

/-- The decided configuration of R5, with the OPEN parameters given. -/
def Cfg.decided (p : OpenParams) : Cfg where
  w := 320
  h := 240
  csActive := false
  dcCommand := false
  wrIdle := true
  rdIdle := true
  rstActive := false
  dcIdle := true
  dIdle := 0x00
  cmdXfers := .one
  fillOneBracket := false
  vwinPacked := true
  regmap := RegMap.decided p.vRamStart p.vRamEnd
  initSeq := defaultInitSeq (RegMap.decided p.vRamStart p.vRamEnd)
  sleepIn := 0x0001
  sleepOut := 0x0000
  tRstLow := 20000
  tSlpout := 31000000
  resetMode := p.resetMode
  clearColor := 0x0000
  hasTouch := false
  adcFullScale := p.adcFullScale
  touchNoise := 8
  touchRetryCap := none
  touchPins := p.touchPins
  portStrategy := p.portStrategy
  pinBase := p.pinBase.orStraight p.resetMode
  pinAddOn := p.pinAddOn.orStraight p.resetMode
  altBoard := p.altBoard
  idString := p.idString
  tWrLow := p.tWrLow
  tWrHigh := p.tWrHigh
  tSetup := p.tSetup
  tHold := p.tHold

/-- The configuration of the machine `State.reset` describes (log entries 2, 3). -/
def Cfg.atReset : Cfg := Cfg.decided Config.openParams

end Sys2Proof
end

