-- ==== Sys2Proof/Machine/State.lean ====
section
/-! DEFINITION. The state of the block (10_state), the events of its trace (20_memory R60), the reasons a
step can stop, and the state after reset (10_state R38). -/

namespace Sys2Proof.Machine

/-- The five control signals (40_port_abstraction R110). -/
inductive Signal
  | cs
  | dc
  | wr
  | rd
  | rst
deriving DecidableEq, Repr

/-- The events of the trace (20_memory R60). -/
inductive Event
  /-- `CFG`: all pins become driven at their idle levels -/
  | cfg
  /-- `SIG(S, v)` -/
  | sig (s : Signal) (v : Level)
  /-- `DATA(b)`: all eight lines in one event -/
  | data (b : Byte)
  /-- `WAIT(t)`: at least `t` nanoseconds pass before the next event -/
  | wait (t : Nat)
deriving DecidableEq, Repr

/-- `LIFE` (10_state R27). Its encoding is 0, 1, 2 in this order; 3 is never reached. -/
inductive Life
  | uninit
  | initializing
  | ready
deriving DecidableEq, Repr

/-- The pin registers `pin[S]` and `pin[D]` (10_state R29). -/
structure Pins where
  cs : Level
  dc : Level
  wr : Level
  rd : Level
  /-- exists only when `RESET_MODE` is `pulsed` (log entry 22) -/
  rst : Level
  d : Byte
deriving DecidableEq, Repr

/-- What the response port presents when a command completes (30_encoding R86, 60_exceptions R235). -/
inductive Response
  /-- `ORIENTXY`: `RX ∥ RY` -/
  | xy (v : BitVec 32)
  /-- `WHOAMI`: `ID_STRING` -/
  | identity (s : String)
  /-- `READTOUCH`: the three readings -/
  | touch (x y z : Reading)
  /-- `READTOUCH` with a retry cap: the extra result `unstable` -/
  | unstable
deriving DecidableEq, Repr

/-- What the sampler does on the touch pins (60_exceptions R232); no display-bus pin is touched (R231). -/
inductive TouchEvent
  /-- the four electrodes are put into these states -/
  | electrodes (e : Electrodes)
  /-- a reading of the X axis -/
  | sampleX (v : Reading)
  /-- a reading of the Y axis -/
  | sampleY (v : Reading)
  /-- the pressure-proxy measurement -/
  | pressure (v : Reading)
deriving DecidableEq, Repr

/-- No constructor: "A model's step function returns a new state and trace, never a fault"
(60_exceptions R220). -/
inductive Fault
deriving DecidableEq, Repr

/-- Why a step is refused: the spec's `refuse` (00_scope R9), tested at acceptance, before the command's
first event (60_exceptions R222). Each is safe: the model stops where the spec gives no meaning. -/
inductive Refusal
  /-- raised by an arm of `exec` whose command has no meaning yet (none is left); safe -/
  | notModelled (mnemonic : String)
  /-- raised by `step` for an `OP` that is not in the command table (30_encoding R85); safe -/
  | reservedOpcode (op : Byte)
  /-- raised by a meaning whose command is not acceptable in the current `LIFE` (60_exceptions R225,
  44_lifecycle R210); safe -/
  | outOfLifecycle (life : Life)
  /-- raised by `READTOUCH` when `HAS_TOUCH` is false (44_lifecycle R209, 30_encoding R85); safe -/
  | touchAbsent
  /-- raised by a command given a coordinate outside the extent of the current orientation
  (43_geometry R174); safe -/
  | coordinateOutOfRange
deriving DecidableEq, Repr

/-- The parameters of the step function that a step consumes (10_state R20: "the configuration `cfg`, the
command list and the oracle are parameters of the step function"). -/
structure Inputs where
  /-- the command list: the words the host presents, the next one first (30_encoding R80; log entry 5) -/
  cmds : List CmdWord
  /-- the oracle: readings the converter will give (60_exceptions R233; log entry 8) -/
  adcIn : List Reading
  /-- the oracle: the model's own index into the free values of `Config` -/
  freeIndex : Nat
deriving DecidableEq, Repr

/-- The state of the block: the registers of 10_state R21 to R32, the output registers of
40_port_abstraction R118, the sequencer's place in a `READTOUCH` and the ghost records. The configuration,
the command list and the oracle are no part of it (00_scope R6, 10_state R20). -/
structure Block where
  /-- `BUSY` (10_state R26) -/
  busy : Bool
  /-- `LIFE` (R27) -/
  life : Life
  /-- `ORIENT` (R28) -/
  orient : BitVec 2
  /-- `F` (R21) -/
  f : Byte
  /-- `x[0]` to `x[4]` (R21) -/
  x0 : Word
  x1 : Word
  x2 : Word
  x3 : Word
  x4 : Word
  /-- the working registers (R22) -/
  px1 : Word
  py1 : Word
  px2 : Word
  py2 : Word
  hs : Word
  he : Word
  vs : Word
  ve : Word
  /-- `COUNT` (R23; log entry 15) -/
  count : Nat
  /-- `SEQ_PC` (R25; log entry 15) -/
  seqPc : Nat
  /-- `PINS_CONFIGURED` (R30) -/
  pinsConfigured : Bool
  /-- `pin[S]`, `pin[D]` (R29) -/
  pins : Pins
  /-- `OUT[p]`: the physical output registers that are not 0, by rising `p`
  (40_port_abstraction R118; log entry 16) -/
  out : List (Nat × Nat)
  /-- `RX`, `RY` (R32) -/
  rx : Word
  ry : Word
  /-- `RT[0..2]` (R32) -/
  rt0 : Reading
  rt1 : Reading
  rt2 : Reading
  /-- the touch calibration constants (R36; log entry 11) -/
  touchCal : List Nat
  /-- a `READTOUCH` in progress: the triples thrown away so far (60_exceptions R232; log entry 5) -/
  sampling : Option Nat
  /-- `TRACE` (R35), oldest event first -/
  trace : List Event
  /-- ghost: what the sampler did, oldest first (log entry 10) -/
  touchTrace : List TouchEvent
  /-- ghost: the values presented on the response port, oldest first (30_encoding R86; log entry 7) -/
  responses : List Response
deriving DecidableEq, Repr

/-- The machine the host's interface runs: a block together with the parameters of its step function, of
which the configuration never changes (00_scope R6, 10_state R20; log entries 1, 5, 8). -/
structure State extends Block, Inputs where
  cfg : Cfg
deriving DecidableEq, Repr

/-- A block together with its parameters. -/
def State.build (c : Cfg) (inp : Inputs) (b : Block) : State := { toBlock := b, toInputs := inp, cfg := c }

/-- Pins that nothing drives (10_state R38; the levels are the model's choice, log entry 4). -/
def Pins.undriven : Pins where
  cs := false
  dc := false
  wr := false
  rd := false
  rst := false
  d := 0

/-- The block after reset, whatever its configuration (10_state R38, 70_reset_and_hazards R250). `life`,
`busy`, `pinsConfigured` and `trace` are the spec's; the rest is the model's (log entry 4). -/
def Block.reset : Block where
  busy := false
  life := .uninit
  orient := 0
  f := 0
  x0 := 0
  x1 := 0
  x2 := 0
  x3 := 0
  x4 := 0
  px1 := 0
  py1 := 0
  px2 := 0
  py2 := 0
  hs := 0
  he := 0
  vs := 0
  ve := 0
  count := 0
  seqPc := 0
  pinsConfigured := false
  pins := Pins.undriven
  out := []
  rx := 0
  ry := 0
  rt0 := 0
  rt1 := 0
  rt2 := 0
  touchCal := []
  sampling := none
  trace := []
  touchTrace := []
  responses := []

/-- Nothing presented and no reading listed (log entries 5, 8). -/
def Inputs.none : Inputs where
  cmds := []
  adcIn := []
  freeIndex := 0

/-- The machine after reset with the configuration `cfg`, "chosen before reset" (00_scope R6). -/
def State.resetWith (cfg : Cfg) : State := State.build cfg Inputs.none Block.reset

/-- The machine right after reset. -/
def State.reset : State := State.resetWith Cfg.atReset

end Sys2Proof.Machine
end

