-- ==== Sys2Proof/Machine/Operands.lean ====
section
/-! DEFINITION. Operand forms: the bytes of a word (20_memory R53), the extent and the coordinate
transform (43_geometry R171, R172), the sorts, the values of the window registers (30_encoding R94, R95). -/

namespace Sys2Proof.Machine

/-- `v[15:8]`. -/
def hiByte (v : Word) : Byte := v.extractLsb' 8 8

/-- `v[7:0]`. -/
def loByte (v : Word) : Byte := v.extractLsb' 0 8

/-- `sizeX(o)` (43_geometry R171). -/
def sizeX (c : Cfg) (o : BitVec 2) : Nat := if o = 0 ∨ o = 2 then c.h else c.w

/-- `sizeY(o)` (43_geometry R171). -/
def sizeY (c : Cfg) (o : BitVec 2) : Nat := if o = 0 ∨ o = 2 then c.w else c.h

/-- `InRange(o, x, y)` (43_geometry R171). -/
def inRange (c : Cfg) (o : BitVec 2) (x y : Word) : Bool :=
  decide (x.toNat < sizeX c o) && decide (y.toNat < sizeY c o)

/-- `T(o, x, y)` (43_geometry R172), on numbers. -/
def transform (c : Cfg) (o : BitVec 2) (x y : Nat) : Nat × Nat :=
  if o = 0 then (y, c.h - 1 - x)
  else if o = 1 then (c.w - 1 - x, c.h - 1 - y)
  else if o = 2 then (c.w - 1 - y, x)
  else (x, y)

/-- `T⁻¹(o, px, py)` (43_geometry R175 b). -/
def transformInv (c : Cfg) (o : BitVec 2) (px py : Nat) : Nat × Nat :=
  if o = 0 then (c.h - 1 - py, px)
  else if o = 1 then (c.w - 1 - px, c.h - 1 - py)
  else if o = 2 then (py, c.w - 1 - px)
  else (px, py)

/-- The first component of `T`, as a register holds it. -/
def physX (c : Cfg) (o : BitVec 2) (x y : Word) : Word := BitVec.ofNat 16 (transform c o x.toNat y.toNat).1

/-- The second component of `T`, as a register holds it. -/
def physY (c : Cfg) (o : BitVec 2) (x y : Word) : Word := BitVec.ofNat 16 (transform c o x.toNat y.toNat).2

/-- `min(a, b)`, unsigned. -/
def minWord (a b : Word) : Word := if a.toNat ≤ b.toNat then a else b

/-- `max(a, b)`, unsigned. -/
def maxWord (a b : Word) : Word := if a.toNat ≤ b.toNat then b else a

/-- `VE[7:0] ∥ VS[7:0]` (30_encoding R95). -/
def packedRows (vs ve : Word) : Word := loByte ve ++ loByte vs

/-- `(x2 - x1 + 1) * (y2 - y1 + 1)` for sorted corners (43_geometry R182). -/
def fillCount (x1 y1 x2 y2 : Word) : Nat := (x2.toNat - x1.toNat + 1) * (y2.toNat - y1.toNat + 1)

/-- The difference of two readings without sign. -/
def readingDiff (a b : Reading) : Nat := (a.toNat - b.toNat) + (b.toNat - a.toNat)

end Sys2Proof.Machine
end

