-- ==== Sys2Proof/Machine/Ports.lean ====
section
/-! DEFINITION. The physical side of the pin layer (40_port_abstraction R117 to R121): output registers,
single-pin writes, masked writes, the lookup table. -/

namespace Sys2Proof.Machine

/-- The contents of the output registers: those that are not 0, by rising register number. -/
abbrev OutFile := List (Nat × Nat)

/-- The canonical form: register numbers strictly rise and no listed value is 0. -/
def OutFile.wf : OutFile → Bool
  | [] => true
  | [x] => x.2 != 0
  | x :: y :: t => x.2 != 0 && decide (x.1 < y.1) && OutFile.wf (y :: t)

/-- `OUT[p]`; a register that is not listed holds 0. -/
def OutFile.read : OutFile → Nat → Nat
  | [], _ => 0
  | x :: t, p => if x.1 = p then x.2 else OutFile.read t p

/-- A value in front of a file, unless it is 0. -/
def OutFile.push (p v : Nat) (t : OutFile) : OutFile := if v = 0 then t else (p, v) :: t

/-- `OUT[p] <- v`, in canonical form. -/
def OutFile.write : OutFile → Nat → Nat → OutFile
  | [], p, v => OutFile.push p v []
  | x :: t, p, v =>
    if p < x.1 then OutFile.push p v (x :: t)
    else if p = x.1 then OutFile.push p v t
    else x :: OutFile.write t p v

/-- `a AND NOT m`. -/
def andNot (a m : Nat) : Nat := a ^^^ (a &&& m)

/-- The uniform digital-write primitive (R117) and the masked write of one signal (R118): the bit at the
place given takes the level, no other bit changes. -/
def OutFile.writePin (o : OutFile) (q : PinPos) (v : Level) : OutFile :=
  o.write q.port (if v then o.read q.port ||| (1 <<< q.bit) else andNot (o.read q.port) (1 <<< q.bit))

/-- The place of a control signal. -/
def place (m : PinMap) : Signal → PinPos
  | .cs => m.cs
  | .dc => m.dc
  | .wr => m.wr
  | .rd => m.rd
  | .rst => m.rst

/-- The data lines that live in register `p`, each with its number `i` of `D[i]`. -/
def dataGroup (m : PinMap) (p : Nat) : List (PinPos × Nat) := m.data.zipIdx.filter fun x => x.1.port == p

/-- The generic conditional-bit-test result (R119): at the place of each `D[i]` in `p`, the bit `b[i]`. -/
def bitTestPattern (m : PinMap) (p : Nat) (b : Byte) : Nat :=
  (dataGroup m p).foldl (fun acc x => if b.getLsbD x.2 then acc ||| (1 <<< x.1.bit) else acc) 0

/-- `datamask[p]` (R118): a 1 at every data-line position in `p`. -/
def dataMask (m : PinMap) (p : Nat) : Nat := (dataGroup m p).foldl (fun acc x => acc ||| (1 <<< x.1.bit)) 0

/-- `LUT[p]` (R119): 256 entries. -/
def lut (m : PinMap) (p : Nat) : List Nat := (List.range 256).map fun b => bitTestPattern m p (BitVec.ofNat 8 b)

/-- The bits of the byte that a group of data lines carries. -/
def groupMask (g : List (PinPos × Nat)) : Nat := g.foldl (fun acc x => acc ||| (1 <<< x.2)) 0

/-- The group stands in the byte's own order, shifted as a whole (R118; log entry 17). -/
def inByteOrder (g : List (PinPos × Nat)) (q : PinPos) (i : Nat) : Bool :=
  g.all fun x => x.1.bit + i == q.bit + x.2

/-- The group moved to its place in the register, where the first of its lines is `D[i]` at bit `k`. -/
def shiftedPattern (g : List (PinPos × Nat)) (k i : Nat) (b : Byte) : Nat :=
  if i ≤ k then (b.toNat &&& groupMask g) <<< (k - i) else (b.toNat &&& groupMask g) >>> (i - k)

/-- `pattern[p](b)` (R118): by masks where the group stands in the byte's own order, else from the
lookup table. -/
def directPattern (m : PinMap) (p : Nat) (b : Byte) : Nat :=
  match dataGroup m p with
  | [] => 0
  | (q, i) :: rest =>
    if inByteOrder rest q i then shiftedPattern ((q, i) :: rest) q.bit i b else (lut m p).getD b.toNat 0

/-- The registers that hold at least one data line (R118). -/
def dataPorts (m : PinMap) : List Nat := (m.data.map PinPos.port).dedup

/-- `DriveData(b)` under the generic strategy (R117): eight single-pin writes. -/
def OutFile.driveGeneric (o : OutFile) (m : PinMap) (b : Byte) : OutFile :=
  m.data.zipIdx.foldl (fun o x => o.writePin x.1 (b.getLsbD x.2)) o

/-- `DriveData(b)` under the direct strategy (R118): one masked write per register with data lines. -/
def OutFile.driveDirect (o : OutFile) (m : PinMap) (b : Byte) : OutFile :=
  (dataPorts m).foldl (fun o p => o.write p (andNot (o.read p) (dataMask m p) ||| directPattern m p b)) o

/-- `DriveData(b)` under the configured strategy. -/
def OutFile.driveData (o : OutFile) (c : Cfg) (b : Byte) : OutFile :=
  match c.portStrategy with
  | .generic => o.driveGeneric c.pinmap b
  | .direct => o.driveDirect c.pinmap b

/-- `SetSig(S, v)`: one write of one place under both strategies (R117, R118). -/
def OutFile.setSig (o : OutFile) (c : Cfg) (s : Signal) (v : Level) : OutFile := o.writePin (place c.pinmap s) v

/-- The pins at their idle levels (R110, R112); `rst` stays as it was when there is no RST pin. -/
def Pins.idle (c : Cfg) (p : Pins) : Pins where
  cs := c.csInactive
  dc := c.dcIdle
  wr := c.wrIdle
  rd := c.rdIdle
  rst := match c.resetMode with | .pulsed => c.rstInactive | .hardwired => p.rst
  d := c.dIdle

/-- The control signals the block has (R110). -/
def signals : ResetMode → List Signal
  | .pulsed => [.cs, .dc, .wr, .rd, .rst]
  | .hardwired => [.cs, .dc, .wr, .rd]

/-- `pin[S]`. -/
def Pins.get (p : Pins) : Signal → Level
  | .cs => p.cs
  | .dc => p.dc
  | .wr => p.wr
  | .rd => p.rd
  | .rst => p.rst

/-- `pin[S] <- v`. -/
def Pins.set (p : Pins) (s : Signal) (v : Level) : Pins :=
  match s with
  | .cs => { p with cs := v }
  | .dc => { p with dc := v }
  | .wr => { p with wr := v }
  | .rd => { p with rd := v }
  | .rst => { p with rst := v }

/-- `Configure()` on the output registers: every signal at its idle level (R112; log entry 16). -/
def OutFile.configure (o : OutFile) (c : Cfg) (p : Pins) : OutFile :=
  ((signals c.resetMode).foldl (fun o s => o.writePin (place c.pinmap s) ((p.idle c).get s)) o).driveData c c.dIdle

end Sys2Proof.Machine
end

