-- ==== Sys2Proof/Machine/Ops.lean ====
section
/-! DEFINITION. The primitives of the pin layer (40_port_abstraction R112 to R116), the shared procedures
of the bus engine and the register encoder as lists of events (41_bus_protocol R134, 42_register_interface
R151), and the response port. This hardware takes no exception and returns from none (60_exceptions R220,
R223, R224), so there is no operation for either. -/

namespace Sys2Proof.Machine

/-- What a meaning answers. -/
abbrev Result := Host.Outcome State Fault Refusal

/-- `pin[·]` after an event (R112 to R116). -/
def pinsAfter (c : Cfg) (p : Pins) : Event → Pins
  | .cfg => p.idle c
  | .sig s v => p.set s v
  | .data b => { p with d := b }
  | .wait _ => p

/-- The output registers after an event (R117, R118); `pins` is read only for a missing RST. -/
def outAfter (c : Cfg) (o : OutFile) : Event → OutFile
  | .cfg => o.configure c Pins.undriven
  | .sig s v => o.setSig c s v
  | .data b => o.driveData c b
  | .wait _ => o

/-- `PINS_CONFIGURED` after an event: `Configure()` sets it, nothing clears it (10_state R30). -/
def configuredAfter (b : Bool) : Event → Bool
  | .cfg => true
  | _ => b

/-- The events given are performed in order (20_memory R59): each changes the pins and is appended to
`TRACE`. -/
def State.perform (s : State) (evs : List Event) : State :=
  { s with
    pins := evs.foldl (pinsAfter s.cfg) s.pins
    out := evs.foldl (outAfter s.cfg) s.out
    pinsConfigured := evs.foldl configuredAfter s.pinsConfigured
    trace := s.trace ++ evs }

/-- `Configure()` (R112). -/
def State.configure (s : State) : State := s.perform [.cfg]

/-- `SetSig(S, v)` (R113). -/
def State.setSig (s : State) (sg : Signal) (v : Level) : State := s.perform [.sig sg v]

/-- `DriveData(b)` (R114). -/
def State.driveData (s : State) (b : Byte) : State := s.perform [.data b]

/-- `Wait(t)` (R116). -/
def State.wait (s : State) (t : Nat) : State := s.perform [.wait t]

/-- `Strobe(b)` (R115): WR low, the byte, WR high. -/
def strobe (b : Byte) : List Event := [.sig .wr false, .data b, .sig .wr true]

/-- `CmdBytes(cmd)` (41_bus_protocol R134). -/
def cmdBytes (c : Cfg) (cmd : Word) : List Event :=
  (match c.cmdXfers with | .two => strobe (hiByte cmd) | .one => []) ++ strobe (loByte cmd)

/-- `DataBytes(hi, lo)` (41_bus_protocol R134). -/
def dataBytes (hi lo : Byte) : List Event := strobe hi ++ strobe lo

/-- The body of `WRCMD` (41_bus_protocol R130). -/
def commandWrite (c : Cfg) (cmd : Word) : List Event :=
  [.sig .dc c.dcCommand, .sig .cs c.csActive] ++ cmdBytes c cmd ++ [.sig .cs c.csInactive]

/-- The body of `WRDATA` (41_bus_protocol R131). -/
def dataWrite (c : Cfg) (hi lo : Byte) : List Event :=
  [.sig .dc c.dcData, .sig .cs c.csActive] ++ dataBytes hi lo ++ [.sig .cs c.csInactive]

/-- The body of `WRCMDDATA` (41_bus_protocol R132): one bracket. -/
def commandDataWrite (c : Cfg) (cmd : Word) (hi lo : Byte) : List Event :=
  [.sig .dc c.dcCommand, .sig .cs c.csActive] ++ cmdBytes c cmd ++ [.sig .dc c.dcData] ++
    dataBytes hi lo ++ [.sig .cs c.csInactive]

/-- `RegWrite(reg, val)` (42_register_interface R151). -/
def regWrite (c : Cfg) (reg : Byte) (val : Word) : List Event :=
  commandDataWrite c (reg.setWidth 16) (hiByte val) (loByte val)

/-- `respond(v)`: `v` is presented on the response port (30_encoding R86). -/
def State.respond (s : State) (r : Response) : State := { s with responses := s.responses ++ [r] }

end Sys2Proof.Machine
end

