-- ==== Sys2Proof/Machine/Flags.lean ====
section
/-! DEFINITION. The block has no status flag and no condition code (10_state R26). What stands in for them
is the handshake `BUSY` and the checks made when a command is accepted (60_exceptions R222, R225). -/

namespace Sys2Proof.Machine

/-- Acceptance of the next word (30_encoding R80): the word leaves the command list, its fields are latched
into `F` and `x[0]` to `x[4]` (10_state R21), `BUSY` rises. -/
def State.accept (s : State) (w : CmdWord) (rest : List CmdWord) : State :=
  { s with
    cmds := rest
    busy := true
    f := w.fieldF
    x0 := w.fieldA
    x1 := w.fieldB
    x2 := w.fieldC
    x3 := w.fieldD
    x4 := w.fieldE }

/-- `BUSY` falls with the command's last event (10_state R26); a `READTOUCH` that has not finished keeps it
up (60_exceptions R234). -/
def State.complete (s : State) : State := { s with busy := s.sampling.isSome }

/-- A command acceptable only in `Ready` (60_exceptions R225). -/
@[inline] def whenReady (s : State) (r : Result) : Result :=
  if s.life = .ready then r else .refused (.outOfLifecycle s.life)

/-- A command that requires its coordinates in range (43_geometry R174). -/
@[inline] def whenInRange (ok : Bool) (r : Result) : Result :=
  if ok then r else .refused .coordinateOutOfRange

end Sys2Proof.Machine
end

