-- ==== Sys2Proof/Machine/Bus.lean ====
section
/-! DEFINITION. The commands of the bus-protocol engine (41_bus_protocol R130 to R133). -/

namespace Sys2Proof.Machine

/-- `WRCMD cmd` (R130). -/
def execWrcmd (cmd : Word) (s : State) : Result :=
  whenReady s (.next (s.perform (commandWrite s.cfg cmd)))

/-- `WRDATA val` (R131): high byte first. -/
def execWrdata (val : Word) (s : State) : Result :=
  whenReady s (.next (s.perform (dataWrite s.cfg (hiByte val) (loByte val))))

/-- `WRCMDDATA cmd, dataHigh, dataLow` (R132). -/
def execWrcmddata (cmd : Word) (dataHigh dataLow : Byte) (s : State) : Result :=
  whenReady s (.next (s.perform (commandDataWrite s.cfg cmd dataHigh dataLow)))

/-- `WRDATA88 hi, lo` (R133). -/
def execWrdata88 (hi lo : Byte) (s : State) : Result :=
  whenReady s (.next (s.perform (dataWrite s.cfg hi lo)))

end Sys2Proof.Machine
end

