-- ==== Sys2Proof/Machine/Geometry.lean ====
section
/-! DEFINITION. The address generator and the fill state machine (43_geometry). -/

namespace Sys2Proof.Machine

/-- `SETORIENT o` (R170): no bus activity. -/
def execSetorient (o : BitVec 2) (s : State) : Result := whenReady s (.next { s with orient := o })

/-- The response registers of `ORIENTXY` take the transformed point, and the pair is presented (R173). -/
def orientResponse (x y : Word) (s : State) : State :=
  let s1 := { s with rx := physX s.cfg s.orient x y, ry := physY s.cfg s.orient x y }
  s1.respond (.xy (s1.rx ++ s1.ry))

/-- `ORIENTXY x, y` (R173). -/
def execOrientxy (x y : Word) (s : State) : Result :=
  whenReady s (whenInRange (inRange s.cfg s.orient x y) (.next (orientResponse x y s)))

/-- What `SetWindow` sends for the bounds given (R176): the horizontal pair, the vertical pair, the start
address, the RAM-data command. -/
def windowEvents (c : Cfg) (hs he vs ve : Word) : List Event :=
  regWrite c c.regmap.hRamStart hs ++ regWrite c c.regmap.hRamEnd he ++
    (if c.vwinPacked then regWrite c c.regmap.vRamPos (packedRows vs ve)
      else regWrite c c.regmap.vRamStart vs ++ regWrite c c.regmap.vRamEnd ve) ++
    regWrite c c.regmap.xRamAddr hs ++ regWrite c c.regmap.yRamAddr vs ++
    commandWrite c (c.regmap.ramData.setWidth 16)

/-- The first two lines of `SetWindow` (R176): both corners transformed, the bounds sorted. -/
def placeWindow (x1 y1 x2 y2 : Word) (s : State) : State :=
  let s1 := { s with
    px1 := physX s.cfg s.orient x1 y1
    py1 := physY s.cfg s.orient x1 y1
    px2 := physX s.cfg s.orient x2 y2
    py2 := physY s.cfg s.orient x2 y2 }
  { s1 with
    hs := minWord s1.px1 s1.px2
    he := maxWord s1.px1 s1.px2
    vs := minWord s1.py1 s1.py2
    ve := maxWord s1.py1 s1.py2 }

/-- The procedure `SetWindow` (R176) after its range check. -/
def setWindow (x1 y1 x2 y2 : Word) (s : State) : State :=
  let s1 := placeWindow x1 y1 x2 y2 s
  s1.perform (windowEvents s1.cfg s1.hs s1.he s1.vs s1.ve)

/-- Both corners are in range (R174, R176). -/
def cornersInRange (x1 y1 x2 y2 : Word) (s : State) : Bool :=
  inRange s.cfg s.orient x1 y1 && inRange s.cfg s.orient x2 y2

/-- `SETWINDOW x1, y1, x2, y2` (R176). -/
def execSetwindow (x1 y1 x2 y2 : Word) (s : State) : Result :=
  whenReady s (whenInRange (cornersInRange x1 y1 x2 y2 s) (.next (setWindow x1 y1 x2 y2 s)))

/-- `sizeX(ORIENT) - 1`: the last logical column. -/
def lastX (c : Cfg) (o : BitVec 2) : Word := BitVec.ofNat 16 (sizeX c o - 1)

/-- `sizeY(ORIENT) - 1`: the last logical row. -/
def lastY (c : Cfg) (o : BitVec 2) : Word := BitVec.ofNat 16 (sizeY c o - 1)

/-- `CLOSEWINDOW` (R178): the window over the full extent. "It never fails the range check." -/
def execClosewindow (s : State) : Result :=
  whenReady s (.next (setWindow 0 0 (lastX s.cfg s.orient) (lastY s.cfg s.orient) s))

/-- The writes of `SETPOINT` (R180): X address, Y address, the colour. -/
def pointEvents (c : Cfg) (px py color : Word) : List Event :=
  regWrite c c.regmap.xRamAddr px ++ regWrite c c.regmap.yRamAddr py ++ regWrite c c.regmap.ramData color

/-- `SETPOINT` after its range check (R180). -/
def setPoint (x y color : Word) (s : State) : State :=
  let s1 := { s with px1 := physX s.cfg s.orient x y, py1 := physY s.cfg s.orient x y }
  s1.perform (pointEvents s1.cfg s1.px1 s1.py1 color)

/-- `SETPOINT x, y, color` (R180). -/
def execSetpoint (x y color : Word) (s : State) : Result :=
  whenReady s (whenInRange (inRange s.cfg s.orient x y) (.next (setPoint x y color s)))

/-- One pass of the fill loop (R182, R184): the two bytes, in a bracket of their own unless
`FILL_ONE_BRACKET`. -/
def pixelEvents (c : Cfg) (color : Word) : List Event :=
  if c.fillOneBracket then dataBytes (hiByte color) (loByte color) else dataWrite c (hiByte color) (loByte color)

/-- The fill loop (R182): while `COUNT` is not 0, one pixel and `COUNT <- COUNT - 1`. -/
def fillLoop (pixel : List Event) : Nat → List Event
  | 0 => []
  | n + 1 => pixel ++ fillLoop pixel n

/-- The pixels of a fill with the bracket of `FILL_ONE_BRACKET` around them (R182). -/
def fillEvents (c : Cfg) (color : Word) (count : Nat) : List Event :=
  if c.fillOneBracket then
    [.sig .dc c.dcData, .sig .cs c.csActive] ++ fillLoop (pixelEvents c color) count ++ [.sig .cs c.csInactive]
  else fillLoop (pixelEvents c color) count

/-- The two corner sorts of `FASTFILL` (R182), on the operand registers (log entry 13). -/
def sortCorners (x1 y1 x2 y2 : Word) (s : State) : State :=
  { s with x0 := minWord x1 x2, x1 := minWord y1 y2, x2 := maxWord x1 x2, x3 := maxWord y1 y2 }

/-- The body of `FASTFILL` (R182) after its range check. The loop leaves `COUNT` at 0. -/
def fillBody (x1 y1 x2 y2 color : Word) (s : State) : State :=
  let s1 := sortCorners x1 y1 x2 y2 s
  let s2 := setWindow s1.x0 s1.x1 s1.x2 s1.x3 s1
  let s3 := { s2 with count := fillCount s1.x0 s1.x1 s1.x2 s1.x3 }
  { s3.perform (fillEvents s3.cfg color s3.count) with count := 0 }

/-- `FASTFILL x1, y1, x2, y2, color` (R182). -/
def execFastfill (x1 y1 x2 y2 color : Word) (s : State) : Result :=
  whenReady s (whenInRange (cornersInRange x1 y1 x2 y2 s) (.next (fillBody x1 y1 x2 y2 color s)))

end Sys2Proof.Machine
end

