-- ==== Sys2Proof/Machine/Register.lean ====
section
/-! DEFINITION. The register-map encoder: `WRREG` and the start-up list (42_register_interface). -/

namespace Sys2Proof.Machine

/-- `WRREG reg, val` (R150). -/
def execWrreg (reg : Byte) (val : Word) (s : State) : Result :=
  whenReady s (.next (s.perform (regWrite s.cfg reg val)))

/-- The events of one step of `INIT_SEQ` (30_encoding R98). -/
def initStepEvents (c : Cfg) : InitStep → List Event
  | .write reg val => regWrite c reg val
  | .delay t => [.wait t]

/-- The loop of `InitSequence()` over the steps still to do (R154); `SEQ_PC` moves by one a step. -/
def initLoop : List InitStep → State → State
  | [], s => s
  | st :: rest, s =>
    let s1 := s.perform (initStepEvents s.cfg st)
    initLoop rest { s1 with seqPc := s1.seqPc + 1 }

/-- `InitSequence()` (R154). -/
def initSequence (s : State) : State := initLoop s.cfg.initSeq { s with seqPc := 0 }

end Sys2Proof.Machine
end

