-- ==== Sys2Proof/Machine/Lifecycle.lean ====
section
/-! DEFINITION. Start-up, sleep and identification (44_lifecycle). -/

namespace Sys2Proof.Machine

/-- `ResetPulse()` (R202). -/
def resetPulse (c : Cfg) : List Event := [.sig .rst c.rstActive, .wait c.tRstLow, .sig .rst c.rstInactive]

/-- The panel reset of `BEGIN`: present only when `RESET_MODE` is `pulsed` (R200, R202). -/
def panelReset (s : State) : State :=
  match s.cfg.resetMode with
  | .pulsed => s.perform (resetPulse s.cfg)
  | .hardwired => s

/-- The operands of the start-up clear: the extent of orientation 1 and `CLEAR_COLOR` (R200, R204). -/
def loadClear (s : State) : State :=
  { s with x0 := 0, x1 := 0, x2 := lastX s.cfg 1, x3 := lastY s.cfg 1, x4 := s.cfg.clearColor }

/-- The start-up clear (R204): the body of `FASTFILL` on the loaded operands. -/
def clearScreen (s : State) : State :=
  let s1 := loadClear s
  fillBody s1.x0 s1.x1 s1.x2 s1.x3 s1.x4 s1

/-- The touch calibration constants, when touch is present (R200, 10_state R36; log entry 11). -/
def calibrate (s : State) : State :=
  { s with touchCal := if s.cfg.hasTouch then Config.touchCalibration else s.touchCal }

/-- The body of `BEGIN` (R200), in the order of its steps. -/
def beginBody (s : State) : State :=
  let s1 := { s with life := .initializing }
  let s2 := s1.configure
  let s3 := panelReset s2
  let s4 := initSequence s3
  let s5 := { s4 with orient := 1 }
  let s6 := clearScreen s5
  let s7 := calibrate s6
  { s7 with life := .ready }

/-- `BEGIN` (R200): acceptable only in `Uninit` (60_exceptions R225). -/
def execBegin (s : State) : Result :=
  if s.life = .uninit then .next (beginBody s) else .refused (.outOfLifecycle s.life)

/-- `SETBACKLIGHT flag` (R205): 1 leaves sleep, 0 enters it; no wait. -/
def execSetbacklight (flag : BitVec 1) (s : State) : Result :=
  whenReady s (.next (s.perform
    (regWrite s.cfg s.cfg.regmap.sleepMode (if flag = 1 then s.cfg.sleepOut else s.cfg.sleepIn))))

/-- `SETINTENSITY level` (R207): "accepted, changes no state and no pin, appends nothing to `TRACE`, and
completes", for every level. -/
def execSetintensity (_level : Byte) (s : State) : Result := whenReady s (.next s)

/-- `WHOAMI` (R208): accepted in every value of `LIFE`. -/
def execWhoami (s : State) : Result := .next (s.respond (.identity s.cfg.idString))

end Sys2Proof.Machine
end

