-- ==== Sys2Proof/Machine/Touch.lean ====
section
/-! DEFINITION. The optional touch sampler (60_exceptions R231 to R235, 44_lifecycle R209). -/

namespace Sys2Proof.Machine

/-- One `draw` (R233): a reading from 0 to `ADC_FULL_SCALE`, from the list of inputs while it lasts, then
a free value (log entry 8). -/
def draw (s : State) : Reading × State :=
  let raw := s.adcIn.headD (Config.adcReading s.freeIndex)
  (BitVec.ofNat 12 (raw.toNat % (s.cfg.adcFullScale.max + 1)),
    { s with adcIn := s.adcIn.tail, freeIndex := s.freeIndex + 1 })

/-- The five readings of the three phases (R232). -/
structure Triple where
  xa : Reading
  xb : Reading
  ya : Reading
  yb : Reading
  z : Reading
deriving DecidableEq, Repr

/-- What the sampler did is recorded (log entry 10). -/
def State.logTouch (s : State) (l : List TouchEvent) : State := { s with touchTrace := s.touchTrace ++ l }

/-- One electrode of a driven pair (R232: "drive one electrode pair high/low"). -/
def driven (isHigh : Bool) : ElectrodeState := if isHigh then .high else .low

/-- One electrode of the orthogonal pair, which floats or is sampled. -/
def listening (isSampled : Bool) : ElectrodeState := if isSampled then .sampled else .floating

/-- Phase 1 before a sample (R232): the X pair driven, the Y pair floating. -/
def driveX (firstHigh : Bool) : Electrodes :=
  ⟨driven firstHigh, driven (!firstHigh), listening false, listening false⟩

/-- Phase 1 during its samples: one electrode of the Y pair is sampled (log entry 28). -/
def senseX (firstHigh second : Bool) : Electrodes :=
  ⟨driven firstHigh, driven (!firstHigh), listening (!second), listening second⟩

/-- Phase 2 before a sample (R232): the Y pair driven, the X pair floating. -/
def driveY (firstHigh : Bool) : Electrodes :=
  ⟨listening false, listening false, driven firstHigh, driven (!firstHigh)⟩

/-- Phase 2 during its samples: one electrode of the X pair is sampled (log entry 28). -/
def senseY (firstHigh second : Bool) : Electrodes :=
  ⟨listening (!second), listening second, driven firstHigh, driven (!firstHigh)⟩

/-- What a physical pin does while the electrodes do `e` (R231); a pin that is no electrode is not touched. -/
def pinState (m : TouchPinMap) (e : Electrodes) (p : PinPos) : Option ElectrodeState :=
  if p = m.xFirst then some e.xFirst
  else if p = m.xSecond then some e.xSecond
  else if p = m.yFirst then some e.yFirst
  else if p = m.ySecond then some e.ySecond
  else none

/-- The free choices of one triple (R232; log entries 10, 28). -/
structure PhaseChoice where
  /-- the first electrode of the X pair is the high one -/
  xHigh : Bool
  /-- the second electrode of the Y pair is sampled in phase 1 -/
  ySecond : Bool
  /-- the first electrode of the Y pair is the high one -/
  yHigh : Bool
  /-- the second electrode of the X pair is sampled in phase 2 -/
  xSecond : Bool
  /-- the electrodes in phase 3 -/
  pressure : Electrodes
deriving DecidableEq, Repr

/-- The record of one triple: two samples of X, two of Y, the pressure proxy (R232; log entry 10). -/
def tripleEvents (p : PhaseChoice) (t : Triple) : List TouchEvent :=
  [.electrodes (driveX p.xHigh), .electrodes (senseX p.xHigh p.ySecond), .sampleX t.xa, .sampleX t.xb,
    .electrodes (driveY p.yHigh), .electrodes (senseY p.yHigh p.xSecond), .sampleY t.ya, .sampleY t.yb,
    .electrodes p.pressure, .pressure t.z]

/-- The free choices at an index. -/
def phaseChoice (n : Nat) : PhaseChoice where
  xHigh := Config.touchPolarity n
  ySecond := Config.touchSampled n
  yHigh := Config.touchPolarity (n + 1)
  xSecond := Config.touchSampled (n + 1)
  pressure := Config.touchPressure n

/-- The three phases (R232), the readings drawn in the order of the record (log entry 10). -/
def measure (s : State) : Triple × State :=
  let xa := draw s
  let xb := draw xa.2
  let ya := draw xb.2
  let yb := draw ya.2
  let z := draw yb.2
  let t : Triple := ⟨xa.1, xb.1, ya.1, yb.1, z.1⟩
  (t, z.2.logTouch (tripleEvents (phaseChoice s.freeIndex) t))

/-- The samples of both axes agree: a difference of exactly `TOUCH_NOISE` is accepted (R232). -/
def Triple.agrees (t : Triple) (noise : Nat) : Bool :=
  decide (readingDiff t.xa t.xb ≤ noise) && decide (readingDiff t.ya t.yb ≤ noise)

/-- `pick(a, b)` (R232): a value between the two samples, inclusive; which one is free (log entry 9). -/
def pickBetween (a b : Reading) (free : Nat) : Reading :=
  BitVec.ofNat 12 (min a.toNat b.toNat + free % (readingDiff a b + 1))

/-- A triple that agrees is returned (R232) and presented (44_lifecycle R209). -/
def touchReturn (t : Triple) (s : State) : State :=
  let s1 := { s with
    rt0 := pickBetween t.xa t.xb (Config.touchPick s.freeIndex)
    rt1 := pickBetween t.ya t.yb (Config.touchPick (s.freeIndex + 1))
    rt2 := t.z
    freeIndex := s.freeIndex + 2
    sampling := none }
  s1.respond (.touch s1.rt0 s1.rt1 s1.rt2)

/-- The retry cap is reached (R235); `none` is the unbounded loop of R234. -/
def capReached (c : Cfg) (failed : Nat) : Bool := c.touchRetryCap.any fun n => decide (n ≤ failed)

/-- One pass of the loop of `TouchSample()` (R232, R235), `failed` triples after the first: with the cap
reached the result is `unstable`; else one triple is measured, returned if it agrees, thrown away if not. -/
def touchPass (failed : Nat) (s : State) : State :=
  if capReached s.cfg failed then { s with sampling := none }.respond .unstable
  else
    let m := measure s
    if m.1.agrees s.cfg.touchNoise then touchReturn m.1 m.2 else { m.2 with sampling := some (failed + 1) }

/-- `READTOUCH` (44_lifecycle R209): its first pass. A later pass is a step of its own (log entry 5). -/
def execReadtouch (s : State) : Result :=
  whenReady s (if s.cfg.hasTouch then .next (touchPass 0 s) else .refused .touchAbsent)

end Sys2Proof.Machine
end

