-- ==== Sys2Proof/Machine/Dispatch.lean ====
section
/-! DEFINITION. One arm per command of 30_encoding R82. -/

namespace Sys2Proof.Machine

def exec (i : Instr) (s : State) : Host.Outcome State Fault Refusal :=
  match i with
  | .wrcmd cmd => Sys2Proof.Machine.execWrcmd cmd s
  | .wrdata val => Sys2Proof.Machine.execWrdata val s
  | .wrcmddata cmd dataHigh dataLow => Sys2Proof.Machine.execWrcmddata cmd dataHigh dataLow s
  | .wrdata88 hi lo => Sys2Proof.Machine.execWrdata88 hi lo s
  | .wrreg reg val => Sys2Proof.Machine.execWrreg reg val s
  | .setorient o => Sys2Proof.Machine.execSetorient o s
  | .orientxy x y => Sys2Proof.Machine.execOrientxy x y s
  | .setwindow x1 y1 x2 y2 => Sys2Proof.Machine.execSetwindow x1 y1 x2 y2 s
  | .closewindow => Sys2Proof.Machine.execClosewindow s
  | .setpoint x y color => Sys2Proof.Machine.execSetpoint x y color s
  | .fastfill x1 y1 x2 y2 color => Sys2Proof.Machine.execFastfill x1 y1 x2 y2 color s
  | .begin => Sys2Proof.Machine.execBegin s
  | .setbacklight flag => Sys2Proof.Machine.execSetbacklight flag s
  | .setintensity level => Sys2Proof.Machine.execSetintensity level s
  | .whoami => Sys2Proof.Machine.execWhoami s
  | .readtouch => Sys2Proof.Machine.execReadtouch s

end Sys2Proof.Machine
end

