-- ==== Sys2Proof/Machine/Step.lean ====
section
/-! DEFINITION. The step: one host command from acceptance to its last event, or one more pass of a
`READTOUCH` that has not finished, or an idle step when the host presents nothing (log entry 5). -/

namespace Sys2Proof.Machine

/-- The command is executed from its acceptance to its last event. -/
def runCommand (i : Instr) (s : State) : Host.Outcome (Block × Inputs) Fault Refusal :=
  match exec i s with
  | .next t => .next (t.complete.toBlock, t.complete.toInputs)
  | .fault r => .fault r
  | .refused r => .refused r

/-- A step of a block that is busy: the next pass of `READTOUCH` (60_exceptions R232). -/
def stepBusy (s : State) : State :=
  match s.sampling with
  | some failed => (touchPass failed s).complete
  | none => s

/-- The step function of the spec: "the configuration `cfg`, the command list and the oracle are parameters"
(10_state R20, 00_scope R6), and the state is the block's. It answers the next state and what is left of the
inputs. A command is accepted only when `BUSY` is 0 (10_state R26); between commands the block idles with its
pins held (60_exceptions R229). -/
def stepBlock (c : Cfg) (inp : Inputs) (b : Block) : Host.Outcome (Block × Inputs) Fault Refusal :=
  let s := State.build c inp b
  if b.busy then .next ((stepBusy s).toBlock, (stepBusy s).toInputs)
  else
    match inp.cmds with
    | [] => .next (b, inp)
    | w :: rest =>
      match decode w with
      | .ok i => runCommand i (s.accept w rest)
      | .error (.reservedOpcode op) => .refused (.reservedOpcode op)

/-- One step as the host's interface asks for it: `stepBlock` with the parameters that stand beside the
block; the configuration stays as it is (00_scope R6; log entries 1, 5, 8). -/
def step (s : State) : Host.Outcome State Fault Refusal :=
  match stepBlock s.cfg s.toInputs s.toBlock with
  | .next t => .next (State.build s.cfg t.2 t.1)
  | .fault r => .fault r
  | .refused r => .refused r

/-- The word a table row's number stands for, presented by the host as the next command: it heads the
command list and `BUSY` is 0, which is all that acceptance takes (30_encoding R80; log entry 5). -/
def State.withFetchWord (s : State) (nbits w : Nat) : State :=
  { s with cmds := tableWord nbits w :: s.cmds, busy := false }

end Sys2Proof.Machine
end

