-- ==== Sys2Proof/Machine/Assembler.lean ====
section
/-! DEFINITION. Assembly lines (30_encoding R88): the text of a line, and its command word. -/

namespace Sys2Proof.Machine

/-- The spelling of an operation (30_encoding R82, R88). -/
def spelling : AsmOp → List Char
  | .cmd .wrcmd => "WRCMD".toList
  | .cmd .wrdata => "WRDATA".toList
  | .cmd .wrcmddata => "WRCMDDATA".toList
  | .cmd .wrdata88 => "WRDATA88".toList
  | .cmd .wrreg => "WRREG".toList
  | .cmd .setorient => "SETORIENT".toList
  | .cmd .orientxy => "ORIENTXY".toList
  | .cmd .setwindow => "SETWINDOW".toList
  | .cmd .closewindow => "CLOSEWINDOW".toList
  | .cmd .setpoint => "SETPOINT".toList
  | .cmd .fastfill => "FASTFILL".toList
  | .cmd .begin => "BEGIN".toList
  | .cmd .setbacklight => "SETBACKLIGHT".toList
  | .cmd .setintensity => "SETINTENSITY".toList
  | .cmd .whoami => "WHOAMI".toList
  | .cmd .readtouch => "READTOUCH".toList
  | .sleep => "SLEEP".toList
  | .wake => "WAKE".toList

/-- Every operation a line may name. -/
def AsmOp.all : List AsmOp := Mnemonic.all.map .cmd ++ [.sleep, .wake]

/-- The value of a digit, below 16. -/
def digit (ch : Char) : Option Nat :=
  let n := ch.toNat
  if 48 ≤ n ∧ n ≤ 57 then some (n - 48)
  else if 97 ≤ n ∧ n ≤ 102 then some (n - 87)
  else if 65 ≤ n ∧ n ≤ 70 then some (n - 55)
  else none

/-- A run of digits in a base, after a value. -/
def digits (base : Nat) : Nat → List Char → Option Nat
  | acc, [] => some acc
  | acc, ch :: cs =>
    match digit ch with
    | some v => if v < base then digits base (acc * base + v) cs else none
    | none => none

/-- "a decimal number or a `0x` hexadecimal number" (R88). -/
def number : List Char → Option Nat
  | [] => none
  | '0' :: 'x' :: [] => none
  | '0' :: 'x' :: cs => digits 16 0 cs
  | cs => digits 10 0 cs

/-- A blank. -/
def blankChar (ch : Char) : Bool := ch == ' ' || ch == '\t'

/-- Blanks at both ends are dropped. -/
def trim (l : List Char) : List Char := ((l.dropWhile blankChar).reverse.dropWhile blankChar).reverse

/-- The operands of a line, separated by commas. -/
def operandsOf (l : List Char) : Option (List Nat) :=
  if trim l = [] then some [] else (l.splitOn ',').mapM fun x => number (trim x)

/-- A line of text (R88), without its comment; `none` for a line that names no operation. -/
def parseLine (l : List Char) : Option AsmLine :=
  let body := trim (l.takeWhile (· != ';'))
  match AsmOp.all.find? (fun o => spelling o == body.takeWhile (fun ch => !blankChar ch)) with
  | some o => (operandsOf (body.dropWhile fun ch => !blankChar ch)).map fun xs => ⟨o, xs⟩
  | none => none

/-- The word of an operation with its operands in their fields, "unread fields written as zero" (R88). -/
def fieldsWord : AsmOp → List Nat → CmdWord
  | .sleep, _ => .make Mnemonic.setbacklight.opcode 0 0 0 0 0 0
  | .wake, _ => .make Mnemonic.setbacklight.opcode 1 0 0 0 0 0
  | .cmd .wrcmddata, [a, h, l] =>
    .make Mnemonic.wrcmddata.opcode 0 (.ofNat 16 a) (BitVec.ofNat 8 h ++ BitVec.ofNat 8 l) 0 0 0
  | .cmd .wrdata88, [h, l] => .make Mnemonic.wrdata88.opcode 0 (BitVec.ofNat 8 h ++ BitVec.ofNat 8 l) 0 0 0 0
  | .cmd .setorient, [f] => .make Mnemonic.setorient.opcode (.ofNat 8 f) 0 0 0 0 0
  | .cmd .setbacklight, [f] => .make Mnemonic.setbacklight.opcode (.ofNat 8 f) 0 0 0 0 0
  | .cmd .setintensity, [f] => .make Mnemonic.setintensity.opcode (.ofNat 8 f) 0 0 0 0 0
  | .cmd .setpoint, [a, b, e] => .make Mnemonic.setpoint.opcode 0 (.ofNat 16 a) (.ofNat 16 b) 0 0 (.ofNat 16 e)
  | .cmd m, xs =>
    .make m.opcode 0 (.ofNat 16 (xs.getD 0 0)) (.ofNat 16 (xs.getD 1 0)) (.ofNat 16 (xs.getD 2 0))
      (.ofNat 16 (xs.getD 3 0)) (.ofNat 16 (xs.getD 4 0))

/-- The command word of a well-formed line (R88). -/
def assemble (l : AsmLine) : Option CmdWord := if l.wellFormed then some (fieldsWord l.op l.operands) else none

/-- The command word of a line of text. -/
def assembleText (l : List Char) : Option CmdWord := (parseLine l).bind assemble

end Sys2Proof.Machine
end

