-- ==== Sys2Proof/Machine/Observe.lean ====
section
/-! DEFINITION. How a trace is read (20_memory R60 to R62), and the protocol rules of 41_bus_protocol R137
as a test on the levels of the wires. -/

namespace Sys2Proof.Machine

/-- A byte the controller latches (20_memory R61). -/
inductive L1Item
  /-- `C(b)` -/
  | cmd (b : Byte)
  /-- `D(b)` -/
  | dat (b : Byte)
deriving DecidableEq, Repr

/-- The levels on the wires: undefined before the first `CFG`, which sets them to the idle levels (R61). -/
def wiresAfter (c : Cfg) (w : Option Pins) (e : Event) : Option Pins :=
  match e with
  | .cfg => some (Pins.undriven.idle c)
  | e => w.map fun p => pinsAfter c p e

/-- What one event latches (R61, R66): a rising edge of WR with CS active and RD idle. -/
def latched (c : Cfg) (w : Option Pins) (e : Event) : List L1Item :=
  match w, e with
  | some p, .sig .wr true =>
    if p.wr = false ∧ p.cs = c.csActive ∧ p.rd = c.rdIdle then
      [if p.dc = c.dcCommand then .cmd p.d else .dat p.d]
    else []
  | _, _ => []

/-- The walk of R61 from the wires given. -/
def l1From (c : Cfg) (w : Option Pins) : List Event → List L1Item
  | [] => []
  | e :: es => latched c w e ++ l1From c (wiresAfter c w e) es

/-- `L1(TRACE)` (R61). -/
def l1 (c : Cfg) (t : List Event) : List L1Item := l1From c none t

/-- An item of the L2 reading (R62); an index is 16 bits wide because `CMD_XFERS = 2` sends one. -/
inductive L2Item
  /-- `SEL(r)` -/
  | sel (r : Word)
  /-- `W(r, v)` -/
  | write (r v : Word)
  /-- `BAD` -/
  | bad
deriving DecidableEq, Repr

/-- What the L2 walk carries: `idx`, `half`, and with `CMD_XFERS = 2` the high byte of an index. -/
structure L2State where
  idx : Option Word
  half : Option Byte
  cmdHigh : Option Byte
deriving DecidableEq, Repr

/-- "initially none" (R62). -/
def L2State.start : L2State := ⟨none, none, none⟩

/-- The `BAD` of a pending byte that was not completed. -/
def badIf (pending : Bool) : List L2Item := if pending then [.bad] else []

/-- `on C(c)` (R62): a pending half is `BAD`; the byte is an index, or half of one with `CMD_XFERS = 2`. -/
def l2Command (c : Cfg) (st : L2State) (b : Byte) : L2State × List L2Item :=
  match c.cmdXfers, st.cmdHigh with
  | .one, _ => (⟨some (b.setWidth 16), none, none⟩, badIf st.half.isSome ++ [.sel (b.setWidth 16)])
  | .two, none => (⟨st.idx, none, some b⟩, badIf st.half.isSome)
  | .two, some h => (⟨some (h ++ b), none, none⟩, badIf st.half.isSome ++ [.sel (h ++ b)])

/-- `on D(b)` (R62). A lone command byte before it is `BAD`; that the data byte then goes to the index
selected before the lone byte is the model's choice (log entry 18). -/
def l2Data (st : L2State) (b : Byte) : L2State × List L2Item :=
  let lone := badIf st.cmdHigh.isSome
  match st.idx, st.half with
  | none, h => (⟨none, h, none⟩, lone ++ [.bad])
  | some r, none => (⟨some r, some b, none⟩, lone)
  | some r, some h => (⟨some r, none, none⟩, lone ++ [.write r (h ++ b)])

/-- One latched byte of the L2 walk. -/
def l2Step (c : Cfg) (st : L2State) : L1Item → L2State × List L2Item
  | .cmd b => l2Command c st b
  | .dat b => l2Data st b

/-- The L2 walk from the state given: what it carries at the end. -/
def l2After (c : Cfg) (st : L2State) (l : List L1Item) : L2State := l.foldl (fun st x => (l2Step c st x).1) st

/-- The L2 walk from the state given: what it puts out. -/
def l2From (c : Cfg) (st : L2State) : List L1Item → List L2Item
  | [] => []
  | x :: xs => (l2Step c st x).2 ++ l2From c (l2Step c st x).1 xs

/-- `L2(TRACE)` (R62). -/
def l2 (c : Cfg) (t : List Event) : List L2Item := l2From c L2State.start (l1 c t)

/-- A *pixel* (R62): a word sent while `RAM_DATA` was selected. -/
def isPixel (c : Cfg) : L2Item → Bool
  | .write r _ => r == c.regmap.ramData.setWidth 16
  | _ => false

/-- A `WAIT` event. -/
def Event.isWait : Event → Bool
  | .wait _ => true
  | _ => false

/-- An event of the signal given. -/
def Event.isSig (s : Signal) : Event → Bool
  | .sig t _ => t == s
  | _ => false

/-- The pulse that must follow a fall of WR (41_bus_protocol R137 b). -/
def pulseFollows : List Event → Bool
  | .data _ :: .sig .wr true :: _ => true
  | _ => false

/-- DC changes outside a bracket only "just before CS goes active" (R137 d). -/
def bracketFollows (c : Cfg) : List Event → Bool
  | .sig .cs v :: _ => v == c.csActive
  | _ => false

/-- The rules (a) to (f) of R137 for one event on wires at the levels `p`, with the events after it: WR
falls only in a bracket and its pulse follows (a, b); CS moves only with WR high (a); DC never moves with
WR low (c), inside a bracket only from command to data, outside only before CS goes active (d); RD never
moves (e); the data lines move only with WR low (f); there is one `CFG`. -/
def keepsProtocol (c : Cfg) (p : Pins) (e : Event) (rest : List Event) : Bool :=
  match e with
  | .cfg => false
  | .sig .rd _ => false
  | .sig .wr false => p.wr && p.cs == c.csActive && pulseFollows rest
  | .sig .wr true => !p.wr
  | .sig .cs _ => p.wr
  | .sig .dc v =>
    p.wr && (if p.cs = c.csActive then p.dc == c.dcCommand && v == c.dcData else bracketFollows c rest)
  | .sig .rst _ => p.wr && p.cs == c.csInactive
  | .data _ => !p.wr
  | .wait _ => p.wr && p.cs == c.csInactive

/-- Every event of a run keeps the rules, from wires at the levels `p`. -/
def protocolFrom (c : Cfg) (p : Pins) : List Event → Bool
  | [] => true
  | e :: es => keepsProtocol c p e es && protocolFrom c (pinsAfter c p e) es

/-- The rules of R137 for a whole trace: nothing before `CFG`, and the rules after it. -/
def protocolOk (c : Cfg) : List Event → Bool
  | [] => true
  | .cfg :: es => protocolFrom c (Pins.undriven.idle c) es
  | _ => false

/-- What a run puts on the wires with the time that passes. -/
inductive Timed
  | item (x : L2Item)
  | pass (t : Nat)
  /-- RST returns to its inactive level (70_reset_and_hazards R266) -/
  | release
deriving DecidableEq, Repr

/-- The waits and the end of the reset pulse, on wires at the levels `w`. -/
def timeMark (c : Cfg) (w : Option Pins) (e : Event) : List Timed :=
  match w, e with
  | _, .wait t => [.pass t]
  | some p, .sig .rst v => if p.rst = c.rstActive ∧ v = c.rstInactive then [.release] else []
  | _, _ => []

/-- The walk that reads register writes, waits and resets together, from wires and an L2 state. -/
def timedFrom (c : Cfg) (w : Option Pins) (st : L2State) : List Event → List Timed
  | [] => []
  | e :: es =>
    timeMark c w e ++ (l2From c st (latched c w e)).map .item ++
      timedFrom c (wiresAfter c w e) (l2After c st (latched c w e)) es

/-- Register writes, waits and resets of a trace, in order. -/
def timed (c : Cfg) (t : List Event) : List Timed := timedFrom c none L2State.start t

end Sys2Proof.Machine
end

