-- ==== Sys2Proof/Machine/Panel.lean ====
section
/-! DEFINITION. What the spec says the controller does with the bus (20_memory R66 to R70), as a reading of
the timed trace. The controller is out of scope (00_scope R4 (5)); its scan order and its recovery time are
parameters (R68, 70_reset_and_hazards R266), and where the spec says nothing the reading has no answer
(log entry 19). -/

namespace Sys2Proof.Machine

/-- What the reading keeps of the controller: the window, the address, the two registers its scan order
depends on (R68), whether the panel is awake (44_lifecycle R206), the time it must still be left alone
(70_reset_and_hazards R261, R266), and the pixels written so far, the last one first. -/
structure Panel where
  hs : Nat
  he : Nat
  vs : Nat
  ve : Nat
  ax : Nat
  ay : Nat
  output : Word
  entry : Word
  awake : Bool
  /-- nanoseconds -/
  owed : Nat
  pixels : List ((Nat × Nat) × Word)
deriving DecidableEq, Repr

/-- Where the address goes after a word, for the window `hs he vs ve` (R68: "a model of the slave must take
the scan order as a parameter"). -/
abbrev Scan := Nat → Nat → Nat → Nat → Nat × Nat → Nat × Nat

/-- The parameters of the controller: its scan order for the values of output control and entry mode (R68),
the recovery time after the panel reset, "zero by default" (70_reset_and_hazards R266), and what the panel
reset leaves, which the spec does not give (R251). -/
structure Controller where
  scan : Word → Word → Scan
  /-- nanoseconds -/
  recovery : Nat := 0
  afterReset : Panel

/-- The general-knowledge instance of R68: X first, wrapping at `HE`, then Y, wrapping at `VE`. -/
def scanXFirst : Scan := fun hs he vs ve a =>
  if a.1 < he then (a.1 + 1, a.2) else (hs, if a.2 < ve then a.2 + 1 else vs)

/-- The last colour written to a pixel. -/
def Panel.pixel (p : Panel) (a : Nat × Nat) : Option Word := p.pixels.lookup a

/-- The address lies inside the window. -/
def Panel.inWindow (p : Panel) (a : Nat × Nat) : Bool :=
  decide (p.hs ≤ a.1) && decide (a.1 ≤ p.he) && decide (p.vs ≤ a.2) && decide (a.2 ≤ p.ve)

/-- Time passes: a wait of the block, or the host's time between two commands (70_reset_and_hazards R261). -/
def Panel.pass (p : Panel) (d : Nat) : Panel := { p with owed := p.owed - d }

/-- An index of the table of 30_encoding R93. -/
def listed (c : Cfg) (r : Word) : Bool := c.namedRegs.any fun b => r == b.setWidth 16

/-- A word of pixel data (R67): stored at the current address, which then advances inside the window. No
answer for an address outside the window (70_reset_and_hazards R262) or outside the frame buffer of R50, to
which a raw register write can take the window: the spec leaves both open (log entry 19). -/
def Panel.store (c : Cfg) (scan : Scan) (p : Panel) (v : Word) : Option Panel :=
  if p.inWindow (p.ax, p.ay) && decide (p.ax < c.w) && decide (p.ay < c.h) then
    let a := scan p.hs p.he p.vs p.ve (p.ax, p.ay)
    some { p with pixels := ((p.ax, p.ay), v) :: p.pixels, ax := a.1, ay := a.2 }
  else none

/-- A word to a window or address register (30_encoding R94 to R96); `none` for any other register. -/
def Panel.setGeometry (c : Cfg) (p : Panel) (r v : Word) : Option Panel :=
  if r = c.regmap.hRamStart.setWidth 16 then some { p with hs := v.toNat }
  else if r = c.regmap.hRamEnd.setWidth 16 then some { p with he := v.toNat }
  else if c.vwinPacked ∧ r = c.regmap.vRamPos.setWidth 16 then
    some { p with vs := (loByte v).toNat, ve := (hiByte v).toNat }
  else if ¬ c.vwinPacked ∧ r = c.regmap.vRamStart.setWidth 16 then some { p with vs := v.toNat }
  else if ¬ c.vwinPacked ∧ r = c.regmap.vRamEnd.setWidth 16 then some { p with ve := v.toNat }
  else if r = c.regmap.xRamAddr.setWidth 16 then some { p with ax := v.toNat }
  else if r = c.regmap.yRamAddr.setWidth 16 then some { p with ay := v.toNat }
  else none

/-- A word to the sleep-mode register: 30 ms are owed after the write that leaves sleep
(70_reset_and_hazards R261); a value that is neither of the two has no answer (log entries 19, 29). -/
def Panel.setSleep (c : Cfg) (p : Panel) (v : Word) : Option Panel :=
  if v = c.sleepOut then some { p with awake := true, owed := 30000000 }
  else if v = c.sleepIn then some { p with awake := false }
  else none

/-- A word to a register of the table. While the panel sleeps, pixels and the registers that place them
have no answer (44_lifecycle R206; log entry 19). -/
def Panel.write (c : Cfg) (k : Controller) (p : Panel) (r v : Word) : Option Panel :=
  if r = c.regmap.sleepMode.setWidth 16 then p.setSleep c v
  else if r = c.regmap.outputCtrl.setWidth 16 then some { p with output := v }
  else if r = c.regmap.entryMode.setWidth 16 then some { p with entry := v }
  else if r = c.regmap.ramData.setWidth 16 then
    if p.awake then p.store c (k.scan p.output p.entry) v else none
  else match p.setGeometry c r v with
    | some q => if p.awake then some q else none
    | none => some p

/-- One L2 item. No answer after `BAD` or for an index that is not in the table
(93_implementation_defined U16, 20_memory R51). -/
def Panel.takeItem (c : Cfg) (k : Controller) (p : Panel) : L2Item → Option Panel
  | .sel r => if listed c r then some p else none
  | .bad => none
  | .write r v => if listed c r then p.write c k r v else none

/-- One event of the reading. Nothing may be sent while time is owed (93_implementation_defined U17,
70_reset_and_hazards R261, R266). -/
def Panel.take (c : Cfg) (k : Controller) (p : Panel) : Timed → Option Panel
  | .pass d => some (p.pass d)
  | .release => some { k.afterReset with owed := k.recovery }
  | .item x => if p.owed = 0 then p.takeItem c k x else none

/-- The panel after a run, while the spec says what it does. -/
def Panel.run (c : Cfg) (k : Controller) : Panel → List Timed → Option Panel
  | p, [] => some p
  | p, x :: xs =>
    match p.take c k x with
    | some q => Panel.run c k q xs
    | none => none

/-- The address after `n` words, from the start corner of a window. -/
def scanPath (scan : Scan) (hs he vs ve : Nat) : Nat → Nat × Nat
  | 0 => (hs, vs)
  | n + 1 => scan hs he vs ve (scanPath scan hs he vs ve n)

/-- The scan order fills the window from its start corner (R67: "scans the window completely before
wrapping"): in `n` words every address is inside, and every pixel is reached. -/
def ScanFills (scan : Scan) (hs he vs ve n : Nat) : Prop :=
  (∀ k, k < n → hs ≤ (scanPath scan hs he vs ve k).1 ∧ (scanPath scan hs he vs ve k).1 ≤ he ∧
    vs ≤ (scanPath scan hs he vs ve k).2 ∧ (scanPath scan hs he vs ve k).2 ≤ ve) ∧
  ∀ x y, hs ≤ x → x ≤ he → vs ≤ y → y ≤ ve → ∃ k, k < n ∧ scanPath scan hs he vs ve k = (x, y)

end Sys2Proof.Machine
end

