-- ==== Sys2Proof/Machine/Reset.lean ====
section
/-! DEFINITION. Reset of the block as an input from outside (70_reset_and_hazards R250 to R252). -/

namespace Sys2Proof.Machine

/-- Reset from any state (R250): every register at its reset value, nothing driven, `TRACE` empty, `cfg`
unchanged. The inputs (the command list, the converter) are not the block's and stay (log entry 23). -/
def State.systemReset (s : State) : State :=
  { State.resetWith s.cfg with cmds := s.cmds, adcIn := s.adcIn, freeIndex := s.freeIndex }

/-- The events a meaning appends to `TRACE`; none where it is refused (60_exceptions R222). -/
def eventsOf (i : Instr) (s : State) : List Event :=
  match exec i s with
  | .next t => t.trace.drop s.trace.length
  | .fault _ => []
  | .refused _ => []

/-- A reset after the first `k` events of a command (R252): what stands on the pins is a prefix of the
command's events, then the state of R250. -/
def resetDuring (i : Instr) (k : Nat) (s : State) : List Event × State :=
  ((eventsOf i s).take k, s.systemReset)

end Sys2Proof.Machine
end

