-- ==== Sys2Proof/Safety.lean ====
section
/-! DEFINITION. What holds of every state a run reaches, when a command is accepted (60_exceptions R222),
and what the host must respect (70_reset_and_hazards R253, R261 to R264). -/

namespace Sys2Proof.Machine

/-- The coordinates a command carries are in range (43_geometry R174); a command without any is. -/
def coordinatesOk (s : State) : Instr → Bool
  | .orientxy x y => inRange s.cfg s.orient x y
  | .setwindow x1 y1 x2 y2 => inRange s.cfg s.orient x1 y1 && inRange s.cfg s.orient x2 y2
  | .setpoint x y _ => inRange s.cfg s.orient x y
  | .fastfill x1 y1 x2 y2 _ => inRange s.cfg s.orient x1 y1 && inRange s.cfg s.orient x2 y2
  | _ => true

/-- The `LIFE` a command is acceptable in (60_exceptions R225, 44_lifecycle R208). -/
def lifeAccepts (l : Life) : Instr → Bool
  | .begin => l == .uninit
  | .whoami => true
  | _ => l == .ready

/-- The touch sampler is there for a command that needs it (44_lifecycle R209). -/
def touchAccepts (c : Cfg) : Instr → Bool
  | .readtouch => c.hasTouch
  | _ => true

/-- The first check of R222 that a decoded command fails, in the order of R222. -/
def refusalOf (i : Instr) (s : State) : Option Refusal :=
  if !lifeAccepts s.life i then some (.outOfLifecycle s.life)
  else if !touchAccepts s.cfg i then some .touchAbsent
  else if !coordinatesOk s i then some .coordinateOutOfRange
  else none

/-- The life cycle and the handshake between steps (44_lifecycle R201, 10_state R26, R30): `Initializing`
is never seen, the pins are configured exactly in `Ready`, `BUSY` means a `READTOUCH` in progress. -/
structure LifeInv (s : State) : Prop where
  settled : s.life ≠ .initializing
  configured : s.pinsConfigured = (s.life == .ready)
  busy : s.busy = s.sampling.isSome
  sampler : s.sampling.isSome → s.life = .ready ∧ s.cfg.hasTouch

/-- The levels between commands (41_bus_protocol R136): CS inactive, WR at 1, RD and RST idle. -/
def QuietPins (s : State) : Prop :=
  s.life = .ready →
    s.pins.cs = s.cfg.csInactive ∧ s.pins.wr = true ∧ s.pins.rd = s.cfg.rdIdle ∧
      (s.cfg.resetMode = .pulsed → s.pins.rst = s.cfg.rstInactive)

/-- The trace keeps the protocol (41_bus_protocol R137), is empty before `BEGIN` (10_state R38), and is
what put the pins where they are (10_state R29). -/
structure TraceInv (s : State) : Prop where
  settled : s.life ≠ .initializing
  fresh : s.life = .uninit → s.trace = []
  protocol : protocolOk s.cfg s.trace = true
  started : s.life = .ready → ∃ es, s.trace = .cfg :: es
  pins : s.pins = s.trace.foldl (pinsAfter s.cfg) Pins.undriven
  quiet : QuietPins s

/-- The physical outputs follow the logical signals (40_port_abstraction R120): at the place of each
signal the block has, the output register holds the level of its pin. -/
structure PortInv (s : State) : Prop where
  settled : s.life ≠ .initializing
  form : OutFile.wf s.out = true
  control : s.life = .ready → ∀ sg ∈ signals s.cfg.resetMode,
    Nat.testBit (OutFile.read s.out (place s.cfg.pinmap sg).port) (place s.cfg.pinmap sg).bit = s.pins.get sg
  data : s.life = .ready → ∀ x ∈ s.cfg.pinmap.data.zipIdx,
    Nat.testBit (OutFile.read s.out x.1.port) x.1.bit = s.pins.d.getLsbD x.2

/-- No command sends half a word (20_memory R54): between steps the L2 reading has nothing pending. -/
def WholeWords (s : State) : Prop :=
  (l2After s.cfg L2State.start (l1 s.cfg s.trace)).half = none ∧
    (l2After s.cfg L2State.start (l1 s.cfg s.trace)).cmdHigh = none

/-- The counters of finished commands (43_geometry R182, 42_register_interface R154): a fill ends with
`COUNT` 0, and `SEQ_PC` never passes the end of the list. -/
def CountersInv (s : State) : Prop := s.count = 0 ∧ s.seqPc ≤ s.cfg.initSeq.length

/-- A write after which the panel may have left sleep: `SLEEP_OUT`, the sleep exit the spec names (30_encoding
R96). That any other value but `SLEEP_IN` counts as one too is the model's choice (log entry 29). -/
def mayLeaveSleep (c : Cfg) (r v : Word) : Bool :=
  r == c.regmap.sleepMode.setWidth 16 && (v == c.sleepOut || v != c.sleepIn)

/-- After a write that may leave sleep, at least 30 ms pass before anything else is sent
(70_reset_and_hazards R261, 42_register_interface R156; which values are such a write: log entry 29). The
argument is the time still owed, if any. -/
def settleKept (c : Cfg) : Option Nat → List Timed → Bool
  | _, [] => true
  | none, .item (.write r v) :: t =>
    settleKept c (if mayLeaveSleep c r v then some 30000000 else none) t
  | none, _ :: t => settleKept c none t
  | some n, .pass d :: t => settleKept c (if n ≤ d then none else some (n - d)) t
  | some n, .release :: t => settleKept c (some n) t
  | some _, .item _ :: _ => false

/-- The host issues `BEGIN` once, and nothing but `WHOAMI` before it (70_reset_and_hazards R253, R268). -/
def lifecycleKept : Bool → List Instr → Bool
  | _, [] => true
  | false, .begin :: t => lifecycleKept true t
  | true, .begin :: _ => false
  | begun, .whoami :: t => lifecycleKept begun t
  | true, _ :: t => lifecycleKept true t
  | false, _ :: _ => false

/-- The orientation after a command (10_state R28): `SETORIENT` and `BEGIN` write it. -/
def orientAfter (o : BitVec 2) : Instr → BitVec 2
  | .setorient o' => o'
  | .begin => 1
  | _ => o

/-- Every coordinate a command carries is in range (43_geometry R174), from orientation `o`. -/
def coordinatesKept (c : Cfg) : BitVec 2 → List Instr → Bool
  | _, [] => true
  | o, i :: t => coordinatesOk { State.resetWith c with orient := o } i && coordinatesKept c (orientAfter o i) t

/-- A rectangle of the full extent (43_geometry R178). -/
def isFullExtent (c : Cfg) (o : BitVec 2) (x1 y1 x2 y2 : Word) : Bool :=
  decide ((minWord x1 x2).toNat = 0) && decide ((minWord y1 y2).toNat = 0) &&
    decide ((maxWord x1 x2).toNat + 1 = sizeX c o) && decide ((maxWord y1 y2).toNat + 1 = sizeY c o)

/-- The host closes a constrained window before it sets a point (70_reset_and_hazards R262). The arguments
are the orientation and whether the controller holds a constrained window. -/
def windowKept (c : Cfg) : BitVec 2 → Bool → List Instr → Bool
  | _, _, [] => true
  | _, b, .setorient o :: t => windowKept c o b t
  | o, _, .setwindow x1 y1 x2 y2 :: t => windowKept c o (!isFullExtent c o x1 y1 x2 y2) t
  | o, _, .fastfill x1 y1 x2 y2 _ :: t => windowKept c o (!isFullExtent c o x1 y1 x2 y2) t
  | o, _, .closewindow :: t => windowKept c o false t
  | _, _, .begin :: t => windowKept c 1 false t
  | o, b, .setpoint _ _ _ :: t => !b && windowKept c o b t
  | o, b, _ :: t => windowKept c o b t

/-- The index a command write selects (30_encoding R90, 20_memory R62). -/
def selectedIndex (c : Cfg) (cmd : Word) : Word :=
  match c.cmdXfers with
  | .one => (loByte cmd).setWidth 16
  | .two => cmd

/-- Whether `RAM_DATA` is the selected index after a command (70_reset_and_hazards R264). -/
def selectsRam (c : Cfg) (before : Bool) : Instr → Bool
  | .wrcmd cmd => selectedIndex c cmd == c.regmap.ramData.setWidth 16
  | .wrcmddata cmd _ _ => selectedIndex c cmd == c.regmap.ramData.setWidth 16
  | .wrreg reg _ => reg == c.regmap.ramData
  | .setbacklight _ => c.regmap.sleepMode == c.regmap.ramData
  | .setwindow _ _ _ _ => true
  | .closewindow => true
  | .setpoint _ _ _ => true
  | .fastfill _ _ _ _ _ => true
  | .begin => true
  | .wrdata _ => before
  | .wrdata88 _ _ => before
  | .setorient _ => before
  | .orientxy _ _ => before
  | .setintensity _ => before
  | .whoami => before
  | .readtouch => before

/-- Whether the host may stream pixels after a command (70_reset_and_hazards R264): it "must have issued
`SETWINDOW` ... and nothing that sends another command byte since". -/
def streamOpen (before : Bool) : Instr → Bool
  | .setwindow _ _ _ _ => true
  | .wrcmd _ => false
  | .wrcmddata _ _ _ => false
  | .wrreg _ _ => false
  | .closewindow => false
  | .setpoint _ _ _ => false
  | .fastfill _ _ _ _ _ => false
  | .begin => false
  | .setbacklight _ => false
  | .wrdata _ => before
  | .wrdata88 _ _ => before
  | .setorient _ => before
  | .orientxy _ _ => before
  | .setintensity _ => before
  | .whoami => before
  | .readtouch => before

/-- A command that sends a word of data alone. -/
def isDataWord : Instr → Bool
  | .wrdata _ => true
  | .wrdata88 _ _ => true
  | _ => false

/-- The host streams its own pixels only where R264 lets it. The argument is whether it may at the start. -/
def streamKept : Bool → List Instr → Bool
  | _, [] => true
  | may, i :: t => (!isDataWord i || may) && streamKept (streamOpen may i) t

/-- What `INIT_SEQ` puts on the pins (42_register_interface R154). -/
def initEvents (c : Cfg) : List Event := c.initSeq.flatMap (initStepEvents c)

/-- What a window command puts on the pins for two corners in orientation `o` (43_geometry R176). -/
def rectEvents (c : Cfg) (o : BitVec 2) (x1 y1 x2 y2 : Word) : List Event :=
  windowEvents c (minWord (physX c o x1 y1) (physX c o x2 y2)) (maxWord (physX c o x1 y1) (physX c o x2 y2))
    (minWord (physY c o x1 y1) (physY c o x2 y2)) (maxWord (physY c o x1 y1) (physY c o x2 y2))

/-- What a fill puts on the pins (43_geometry R182): the window of the sorted corners, then the pixels. -/
def rectFillEvents (c : Cfg) (o : BitVec 2) (x1 y1 x2 y2 color : Word) : List Event :=
  rectEvents c o (minWord x1 x2) (minWord y1 y2) (maxWord x1 x2) (maxWord y1 y2) ++
    fillEvents c color (fillCount (minWord x1 x2) (minWord y1 y2) (maxWord x1 x2) (maxWord y1 y2))

/-- The shape of the trace of `BEGIN` (44_lifecycle R203). -/
def beginEvents (c : Cfg) : List Event :=
  [.cfg] ++ (match c.resetMode with | .pulsed => resetPulse c | .hardwired => []) ++ initEvents c ++
    rectFillEvents c 1 0 0 (lastX c 1) (lastY c 1) c.clearColor

/-- What an accepted command puts on the pins, from the configuration, the orientation and the command
alone: the block keeps no other record (10_state R34). -/
def commandEvents (c : Cfg) (o : BitVec 2) : Instr → List Event
  | .wrcmd cmd => commandWrite c cmd
  | .wrdata val => dataWrite c (hiByte val) (loByte val)
  | .wrcmddata cmd hi lo => commandDataWrite c cmd hi lo
  | .wrdata88 hi lo => dataWrite c hi lo
  | .wrreg reg val => regWrite c reg val
  | .setorient _ => []
  | .orientxy _ _ => []
  | .setwindow x1 y1 x2 y2 => rectEvents c o x1 y1 x2 y2
  | .closewindow => rectEvents c o 0 0 (lastX c o) (lastY c o)
  | .setpoint x y color => pointEvents c (physX c o x y) (physY c o x y) color
  | .fastfill x1 y1 x2 y2 color => rectFillEvents c o x1 y1 x2 y2 color
  | .begin => beginEvents c
  | .setbacklight flag => regWrite c c.regmap.sleepMode (if flag = 1 then c.sleepOut else c.sleepIn)
  | .setintensity _ => []
  | .whoami => []
  | .readtouch => []

/-- The timed reading of a host's script from reset: before each command the time the host lets pass, in
nanoseconds (70_reset_and_hazards R261: "a host-side `WAIT` between two commands"). The arguments are the
wires, the L2 walk and the orientation. -/
def scriptTimed (c : Cfg) : Option Pins → L2State → BitVec 2 → List (Nat × Instr) → List Timed
  | _, _, _, [] => []
  | w, st, o, (d, i) :: rest =>
    let evs := commandEvents c o i
    .pass d :: timedFrom c w st evs ++
      scriptTimed c (evs.foldl (wiresAfter c) w) (l2After c st (l1From c w evs)) (orientAfter o i) rest

/-- The host keeps the 30 ms after each sleep exit of its own (70_reset_and_hazards R261; what counts as one:
log entry 29). -/
def hostSettleKept (c : Cfg) (script : List (Nat × Instr)) : Bool :=
  settleKept c none (scriptTimed c none L2State.start 0 script)

/-- A command that sends whatever index the host gives (20_memory R51). -/
def sendsHostIndex : Instr → Bool
  | .wrcmd _ => true
  | .wrcmddata _ _ _ => true
  | .wrreg _ _ => true
  | _ => false

/-- The command a line of assembly stands for: its own mnemonic's, with the operands in the order of
30_encoding R82; an operand that is a slice of a field is the low part of the number written (log entry
26). -/
def lineCommand : AsmOp → List Nat → Option Instr
  | .cmd .wrcmd, [cmd] => some (.wrcmd (.ofNat 16 cmd))
  | .cmd .wrdata, [val] => some (.wrdata (.ofNat 16 val))
  | .cmd .wrcmddata, [cmd, hi, lo] => some (.wrcmddata (.ofNat 16 cmd) (.ofNat 8 hi) (.ofNat 8 lo))
  | .cmd .wrdata88, [hi, lo] => some (.wrdata88 (.ofNat 8 hi) (.ofNat 8 lo))
  | .cmd .wrreg, [reg, val] => some (.wrreg (.ofNat 8 reg) (.ofNat 16 val))
  | .cmd .setorient, [o] => some (.setorient (.ofNat 2 o))
  | .cmd .orientxy, [x, y] => some (.orientxy (.ofNat 16 x) (.ofNat 16 y))
  | .cmd .setwindow, [x1, y1, x2, y2] =>
    some (.setwindow (.ofNat 16 x1) (.ofNat 16 y1) (.ofNat 16 x2) (.ofNat 16 y2))
  | .cmd .closewindow, [] => some .closewindow
  | .cmd .setpoint, [x, y, color] => some (.setpoint (.ofNat 16 x) (.ofNat 16 y) (.ofNat 16 color))
  | .cmd .fastfill, [x1, y1, x2, y2, color] =>
    some (.fastfill (.ofNat 16 x1) (.ofNat 16 y1) (.ofNat 16 x2) (.ofNat 16 y2) (.ofNat 16 color))
  | .cmd .begin, [] => some .begin
  | .cmd .setbacklight, [flag] => some (.setbacklight (.ofNat 1 flag))
  | .cmd .setintensity, [level] => some (.setintensity (.ofNat 8 level))
  | .cmd .whoami, [] => some .whoami
  | .cmd .readtouch, [] => some .readtouch
  | .sleep, [] => some (.setbacklight 0)
  | .wake, [] => some (.setbacklight 1)
  | _, _ => none

/-- The five readings of a triple, in the order they are drawn (60_exceptions R232; log entry 10). -/
def Triple.readings (t : Triple) : List Reading := [t.xa, t.xb, t.ya, t.yb, t.z]

/-- Each reading is one the converter can give (60_exceptions R233). -/
def Triple.inScale (t : Triple) (c : Cfg) : Prop := ∀ v ∈ t.readings, v.toNat ≤ c.adcFullScale.max

/-- The value returned for an axis lies between its two samples (60_exceptions R232). -/
def Between (a b r : Reading) : Prop := min a.toNat b.toNat ≤ r.toNat ∧ r.toNat ≤ max a.toNat b.toNat

/-- The L1 reading of a command write (30_encoding R90). -/
def commandItems (c : Cfg) (cmd : Word) : List L1Item :=
  match c.cmdXfers with
  | .one => [.cmd (loByte cmd)]
  | .two => [.cmd (hiByte cmd), .cmd (loByte cmd)]

/-- The L1 reading of a 16-bit data write: high byte first (30_encoding R90). -/
def dataItems (v : Word) : List L1Item := [.dat (hiByte v), .dat (loByte v)]

/-- The L1 reading of a register write (30_encoding R91). -/
def registerItems (c : Cfg) (reg : Byte) (val : Word) : List L1Item :=
  commandItems c (reg.setWidth 16) ++ dataItems val

/-- The L2 reading of a register write (30_encoding R91). -/
def registerWrites (reg : Byte) (val : Word) : List L2Item :=
  [.sel (reg.setWidth 16), .write (reg.setWidth 16) val]

/-- The L2 reading of `SetWindow` (43_geometry R176). -/
def windowWrites (c : Cfg) (hs he vs ve : Word) : List L2Item :=
  registerWrites c.regmap.hRamStart hs ++ registerWrites c.regmap.hRamEnd he ++
    (if c.vwinPacked then registerWrites c.regmap.vRamPos (packedRows vs ve)
      else registerWrites c.regmap.vRamStart vs ++ registerWrites c.regmap.vRamEnd ve) ++
    registerWrites c.regmap.xRamAddr hs ++ registerWrites c.regmap.yRamAddr vs ++
    [.sel (c.regmap.ramData.setWidth 16)]

/-- The L2 reading of a pixel stream after its command (30_encoding R92). -/
def pixelWrites (c : Cfg) (color : Word) (n : Nat) : List L2Item :=
  List.replicate n (.write (c.regmap.ramData.setWidth 16) color)

/-- The L2 reading of `INIT_SEQ` (42_register_interface R154). -/
def initWrites (c : Cfg) : List L2Item :=
  c.initSeq.flatMap fun st => match st with | .write reg val => registerWrites reg val | .delay _ => []

/-- A safe step: the block answers a next state. -/
def Accepted (s : State) : Prop := ∃ t, step s = .next t

end Sys2Proof.Machine
end

