-- ==== Sys2Proof/Certificates/Slice0/Obligations.lean ====
section
/-! DEFINITION. The statements for the provers. Each docstring names the rules of spec/ it rests on. `.next`
answers are always whole states, so each statement about a command carries the command's frame. -/

open Sys2Proof Sys2Proof.Machine

/-! ## The command word -/

/-- 30_encoding R81 to R83, R88: no bit of a command's word is dropped. -/
def Obligations.DecodeEncodeRoundTrip : Prop := ∀ i : Instr, decode (encode i) = .ok i

/-- 30_encoding R84: the decoder matches on `OP` alone, and bits outside `OP` and the command's operands
never matter. -/
def Obligations.UnreadFieldsAreIgnored : Prop :=
  Mnemonic.mask = 0xFF0000000000000000000000 ∧
    (∀ (m : Mnemonic) (w : CmdWord),
      w &&& Mnemonic.mask = m.opcode.setWidth 96 <<< 88 ↔ ∃ i, decode w = .ok i ∧ i.mnemonic = m) ∧
    ∀ (m : Mnemonic) (w w' : CmdWord), w &&& Mnemonic.mask = m.opcode.setWidth 96 <<< 88 →
      w &&& m.readMask = w' &&& m.readMask → decode w' = decode w

/-- 30_encoding R85: the reserved values of `OP` are exactly those listed; a step refuses them by name, and
refuses `READTOUCH` without touch. -/
def Obligations.ReservedOpcodesAreRefused : Prop :=
  (∀ op : Byte, (Mnemonic.ofOpcode op = none ↔
      op.toNat = 0 ∨ (5 ≤ op.toNat ∧ op.toNat ≤ 0x0F) ∨ (0x11 ≤ op.toNat ∧ op.toNat ≤ 0x1F) ∨
        (0x26 ≤ op.toNat ∧ op.toNat ≤ 0x2F) ∨ (0x35 ≤ op.toNat ∧ op.toNat ≤ 0xFF))) ∧
    (∀ (s : State) (w : CmdWord) (rest : List CmdWord), s.busy = false → s.cmds = w :: rest →
      Mnemonic.ofOpcode (w.extractLsb' 88 8) = none →
      step s = .refused (.reservedOpcode (w.extractLsb' 88 8))) ∧
    ∀ s : State, s.life = .ready → s.cfg.hasTouch = false → exec .readtouch s = .refused .touchAbsent

/-- Words written out in 95_test_vectors decode to the commands they stand for (30_encoding R81, R82). -/
def Obligations.WrittenOutWordsDecode : Prop :=
  decode 0x0300004E013F000000000000 = .ok (.wrcmddata 0x004E 0x01 0x3F) ∧
    decode 0x10000122FFFF000000000000 = .ok (.wrreg 0x22 0xFFFF) ∧
    decode 0x200700000000000000000000 = .ok (.setorient 3) ∧
    decode 0x2500000A0014000C0015F800 = .ok (.fastfill 10 20 12 21 0xF800) ∧
    decode 0x31FE00000000000000000000 = .ok (.setbacklight 0)

/-- 30_encoding R88: every well-formed line has a word, and the word decodes to the command of the line's own
mnemonic with its operands in the order of R82; an ill-formed line has none; every command is the command of
a line of its own mnemonic, whose word has the unread fields at zero. That an operand which is a slice of a
field is written as the whole field, and what an ill-formed line is, are the model's reading (log entry
26). -/
def Obligations.AssemblyLinesHaveWords : Prop :=
  (∀ l : AsmLine, l.wellFormed = true →
    ∃ w i, assemble l = some w ∧ lineCommand l.op l.operands = some i ∧ decode w = .ok i) ∧
    (∀ l : AsmLine, l.wellFormed = false → assemble l = none) ∧
    (∀ i : Instr, ∃ xs, (AsmLine.mk (.cmd i.mnemonic) xs).wellFormed = true ∧
      lineCommand (.cmd i.mnemonic) xs = some i ∧ assemble ⟨.cmd i.mnemonic, xs⟩ = some (encode i)) ∧
    ∀ (m : Mnemonic) (xs : List Nat) (i : Instr), lineCommand (.cmd m) xs = some i → i.mnemonic = m

/-! ## The step -/

/-- 30_encoding R80, 10_state R21, R26: a step accepts the next word (its fields latched, `BUSY` raised),
runs the decoded command, and lets `BUSY` fall unless a touch sample is in progress; a refusal of the
command is the step's. -/
def Obligations.StepRunsTheDecodedCommand : Prop :=
  ∀ (s : State) (w : CmdWord) (rest : List CmdWord) (i : Instr), s.busy = false → s.cmds = w :: rest →
    decode w = .ok i →
    let a : State := { s with
      cmds := rest
      busy := true
      f := w.extractLsb' 80 8
      x0 := w.extractLsb' 64 16
      x1 := w.extractLsb' 48 16
      x2 := w.extractLsb' 32 16
      x3 := w.extractLsb' 16 16
      x4 := w.extractLsb' 0 16 }
    (∀ t, exec i a = .next t → step s = .next { t with busy := t.sampling.isSome }) ∧
      ∀ r, exec i a = .refused r → step s = .refused r

/-- 60_exceptions R221, R228, R229, 10_state R26: with no command presented the block idles and nothing
changes; while `BUSY` is 1 no command is accepted and nothing comes between. That a step begun with `BUSY` at 1
leaves the pins and the trace alone holds by the model's choice of step: a command that moves pins runs whole
inside one step, so `BUSY` is up between steps only during `READTOUCH` (log entry 5), and a busy block without
a sample in progress, which no run reaches, stays as it is (log entry 6). -/
def Obligations.StepsWithoutAcceptance : Prop :=
  (∀ s : State, s.busy = false → s.cmds = [] → step s = .next s) ∧
    ∀ s : State, s.busy = true → ∃ t, step s = .next t ∧
      t = { s with
        busy := t.busy
        rt0 := t.rt0
        rt1 := t.rt1
        rt2 := t.rt2
        sampling := t.sampling
        adcIn := t.adcIn
        freeIndex := t.freeIndex
        touchTrace := t.touchTrace
        responses := t.responses }

/-- 60_exceptions R222, R225, 44_lifecycle R208, R209, 43_geometry R174: a decoded command is refused
exactly when a check of R222 fails, by the first that fails in R222's order; else it answers a next state. -/
def Obligations.CommandsAreAcceptedExactly : Prop :=
  ∀ (i : Instr) (s : State),
    (refusalOf i s = none → ∃ t, exec i s = .next t) ∧ ∀ r, refusalOf i s = some r → exec i s = .refused r

/-! ## The bus-protocol engine -/

/-- 41_bus_protocol R130, R134: `WRCMD` from `Ready`: its events, the levels it leaves, and nothing else. -/
def Obligations.WrcmdSendsOneCommand : Prop :=
  ∀ (s : State) (cmd : Word), s.life = .ready →
    let evs : List Event :=
      [.sig .dc s.cfg.dcCommand, .sig .cs s.cfg.csActive] ++
        (if s.cfg.cmdXfers = .two then [.sig .wr false, .data (cmd.extractLsb' 8 8), .sig .wr true] else []) ++
        [.sig .wr false, .data (cmd.extractLsb' 0 8), .sig .wr true, .sig .cs (!s.cfg.csActive)]
    exec (.wrcmd cmd) s = .next { s with
      pins := { s.pins with
        cs := !s.cfg.csActive, dc := s.cfg.dcCommand, wr := true, d := cmd.extractLsb' 0 8 }
      out := evs.foldl (outAfter s.cfg) s.out
      trace := s.trace ++ evs }

/-- 41_bus_protocol R131, R133, 20_memory R53: `WRDATA` and `WRDATA88` send the high byte first, in one
bracket; the word and the two bytes it is made of leave one state. -/
def Obligations.DataWordsGoHighByteFirst : Prop :=
  ∀ (s : State) (hi lo : Byte), s.life = .ready →
    let evs : List Event :=
      [.sig .dc (!s.cfg.dcCommand), .sig .cs s.cfg.csActive, .sig .wr false, .data hi, .sig .wr true,
        .sig .wr false, .data lo, .sig .wr true, .sig .cs (!s.cfg.csActive)]
    let t : State := { s with
      pins := { s.pins with cs := !s.cfg.csActive, dc := !s.cfg.dcCommand, wr := true, d := lo }
      out := evs.foldl (outAfter s.cfg) s.out
      trace := s.trace ++ evs }
    exec (.wrdata88 hi lo) s = .next t ∧ exec (.wrdata (hi ++ lo)) s = .next t

/-- 41_bus_protocol R132: `WRCMDDATA` is one bracket, DC moving from command to data inside it. -/
def Obligations.WrcmddataIsOneBracket : Prop :=
  ∀ (s : State) (cmd : Word) (hi lo : Byte), s.life = .ready →
    let evs : List Event :=
      [.sig .dc s.cfg.dcCommand, .sig .cs s.cfg.csActive] ++
        (if s.cfg.cmdXfers = .two then [.sig .wr false, .data (cmd.extractLsb' 8 8), .sig .wr true] else []) ++
        [.sig .wr false, .data (cmd.extractLsb' 0 8), .sig .wr true, .sig .dc (!s.cfg.dcCommand),
          .sig .wr false, .data hi, .sig .wr true, .sig .wr false, .data lo, .sig .wr true,
          .sig .cs (!s.cfg.csActive)]
    exec (.wrcmddata cmd hi lo) s = .next { s with
      pins := { s.pins with cs := !s.cfg.csActive, dc := !s.cfg.dcCommand, wr := true, d := lo }
      out := evs.foldl (outAfter s.cfg) s.out
      trace := s.trace ++ evs }

/-- 41_bus_protocol R138: with one transfer a command, the three bus commands are 6, 9 and 13 events, and a
transfer is 3. -/
def Obligations.BusCommandsCostTheirEvents : Prop :=
  (∀ b : Byte, (strobe b).length = 3) ∧
    ∀ (s t : State) (v : Word) (hi lo : Byte), s.cfg.cmdXfers = .one →
      (exec (.wrcmd v) s = .next t → t.trace.length = s.trace.length + 6) ∧
      (exec (.wrdata v) s = .next t → t.trace.length = s.trace.length + 9) ∧
      (exec (.wrcmddata v hi lo) s = .next t → t.trace.length = s.trace.length + 13)

/-! ## The register-map encoder -/

/-- 42_register_interface R150, R151: `WRREG` is the combined write of an 8-bit index and a 16-bit value,
any index, any value. -/
def Obligations.WrregWritesOneRegister : Prop :=
  ∀ (s : State) (reg : Byte) (val : Word), s.life = .ready →
    let evs : List Event :=
      [.sig .dc s.cfg.dcCommand, .sig .cs s.cfg.csActive] ++
        (if s.cfg.cmdXfers = .two then [.sig .wr false, .data 0x00, .sig .wr true] else []) ++
        [.sig .wr false, .data reg, .sig .wr true, .sig .dc (!s.cfg.dcCommand),
          .sig .wr false, .data (val.extractLsb' 8 8), .sig .wr true,
          .sig .wr false, .data (val.extractLsb' 0 8), .sig .wr true, .sig .cs (!s.cfg.csActive)]
    exec (.wrreg reg val) s = .next { s with
      pins := { s.pins with
        cs := !s.cfg.csActive, dc := !s.cfg.dcCommand, wr := true, d := val.extractLsb' 0 8 }
      out := evs.foldl (outAfter s.cfg) s.out
      trace := s.trace ++ evs }

/-- 44_lifecycle R205, R206: `SETBACKLIGHT` is the register write of the sleep-mode register, `SLEEP_OUT`
for 1 and `SLEEP_IN` for 0, with no wait and no change of `LIFE`. -/
def Obligations.SetbacklightWritesSleepMode : Prop :=
  ∀ s : State, s.life = .ready →
    exec (.setbacklight 1) s = exec (.wrreg s.cfg.regmap.sleepMode s.cfg.sleepOut) s ∧
      exec (.setbacklight 0) s = exec (.wrreg s.cfg.regmap.sleepMode s.cfg.sleepIn) s ∧
      ∀ flag, ∃ t, exec (.setbacklight flag) s = .next t ∧
        t = { s with pins := t.pins, out := t.out, trace := t.trace } ∧
        t.trace.filter Event.isWait = s.trace.filter Event.isWait

/-! ## The geometry layer -/

/-- 43_geometry R170: `SETORIENT` writes `ORIENT` and nothing else; there is no bus activity. -/
def Obligations.SetorientWritesOnlyOrient : Prop :=
  ∀ (s : State) (o : BitVec 2), s.life = .ready → exec (.setorient o) s = .next { s with orient := o }

/-- 43_geometry R172, R173: `ORIENTXY` in range answers the transformed point on the response port, by the
four formulas of R172, and changes nothing but `RX`, `RY` and the port. -/
def Obligations.OrientxyAnswersTheTransform : Prop :=
  ∀ (s : State) (x y : Word), s.life = .ready → s.cfg.valid = true → inRange s.cfg s.orient x y = true →
    ∃ t, exec (.orientxy x y) s = .next t ∧
      t = { s with rx := t.rx, ry := t.ry, responses := s.responses ++ [.xy (t.rx ++ t.ry)] } ∧
      (s.orient = 0 → t.rx.toNat = y.toNat ∧ t.ry.toNat + x.toNat + 1 = s.cfg.h) ∧
      (s.orient = 1 → t.rx.toNat + x.toNat + 1 = s.cfg.w ∧ t.ry.toNat + y.toNat + 1 = s.cfg.h) ∧
      (s.orient = 2 → t.rx.toNat + y.toNat + 1 = s.cfg.w ∧ t.ry.toNat = x.toNat) ∧
      (s.orient = 3 → t.rx = x ∧ t.ry = y)

/-- 43_geometry R175: in every orientation the transform is a bijection of the logical extent onto the
panel, with the inverses of R175 (b); orientation 1 is its own inverse; none is a reflection. -/
def Obligations.TransformIsABijection : Prop :=
  ∀ (c : Cfg) (o : BitVec 2),
    (∀ x y, x < sizeX c o → y < sizeY c o →
      (transform c o x y).1 < c.w ∧ (transform c o x y).2 < c.h ∧
        transformInv c o (transform c o x y).1 (transform c o x y).2 = (x, y)) ∧
    (∀ px py, px < c.w → py < c.h →
      (transformInv c o px py).1 < sizeX c o ∧ (transformInv c o px py).2 < sizeY c o ∧
        transform c o (transformInv c o px py).1 (transformInv c o px py).2 = (px, py)) ∧
    (∀ x y, x < c.w → y < c.h → transform c 1 (transform c 1 x y).1 (transform c 1 x y).2 = (x, y)) ∧
    ∀ x y, x + 1 < sizeX c o → y + 1 < sizeY c o →
      (((transform c o (x + 1) y).1 : Int) - (transform c o x y).1) *
          (((transform c o x (y + 1)).2 : Int) - (transform c o x y).2) -
        (((transform c o (x + 1) y).2 : Int) - (transform c o x y).2) *
          (((transform c o x (y + 1)).1 : Int) - (transform c o x y).1) = 1

/-- 43_geometry R176: `SETWINDOW` in range transforms both corners, sorts, and sends the horizontal pair,
the vertical pair, the start address and the RAM-data command, in that order. -/
def Obligations.SetwindowProgramsTheWindow : Prop :=
  ∀ (s : State) (x1 y1 x2 y2 : Word), s.life = .ready → s.cfg.valid = true →
    inRange s.cfg s.orient x1 y1 = true → inRange s.cfg s.orient x2 y2 = true →
    ∃ t, exec (.setwindow x1 y1 x2 y2) s = .next t ∧
      t = { s with
        px1 := t.px1, py1 := t.py1, px2 := t.px2, py2 := t.py2, hs := t.hs, he := t.he, vs := t.vs, ve := t.ve
        pins := t.pins, out := t.out, trace := t.trace } ∧
      (t.px1.toNat, t.py1.toNat) = transform s.cfg s.orient x1.toNat y1.toNat ∧
      (t.px2.toNat, t.py2.toNat) = transform s.cfg s.orient x2.toNat y2.toNat ∧
      t.hs.toNat = min t.px1.toNat t.px2.toNat ∧ t.he.toNat = max t.px1.toNat t.px2.toNat ∧
      t.vs.toNat = min t.py1.toNat t.py2.toNat ∧ t.ve.toNat = max t.py1.toNat t.py2.toNat ∧
      t.pins = { s.pins with
        cs := !s.cfg.csActive, dc := s.cfg.dcCommand, wr := true, d := s.cfg.regmap.ramData } ∧
      ∃ evs, evs = regWrite s.cfg s.cfg.regmap.hRamStart t.hs ++ regWrite s.cfg s.cfg.regmap.hRamEnd t.he ++
          (if s.cfg.vwinPacked then
            regWrite s.cfg s.cfg.regmap.vRamPos (t.ve.extractLsb' 0 8 ++ t.vs.extractLsb' 0 8)
          else regWrite s.cfg s.cfg.regmap.vRamStart t.vs ++ regWrite s.cfg s.cfg.regmap.vRamEnd t.ve) ++
          regWrite s.cfg s.cfg.regmap.xRamAddr t.hs ++ regWrite s.cfg s.cfg.regmap.yRamAddr t.vs ++
          commandWrite s.cfg (s.cfg.regmap.ramData.setWidth 16) ∧
        t.trace = s.trace ++ evs ∧ t.out = evs.foldl (outAfter s.cfg) s.out

/-- 43_geometry R177: the four ways to name the corners of a rectangle give one trace and one window. -/
def Obligations.WindowOrderIndependence : Prop :=
  ∀ (s : State) (x1 y1 x2 y2 : Word), s.life = .ready →
    inRange s.cfg s.orient x1 y1 = true → inRange s.cfg s.orient x2 y2 = true →
    ∃ t, exec (.setwindow x1 y1 x2 y2) s = .next t ∧
      ∀ i ∈ [Instr.setwindow x2 y1 x1 y2, Instr.setwindow x1 y2 x2 y1, Instr.setwindow x2 y2 x1 y1],
        ∃ u, exec i s = .next u ∧ u.trace = t.trace ∧ u.hs = t.hs ∧ u.he = t.he ∧ u.vs = t.vs ∧ u.ve = t.ve

/-- 43_geometry R178: in every orientation `CLOSEWINDOW` programs the full panel, never refused for range,
with a trace that does not depend on `ORIENT`. -/
def Obligations.ClosewindowProgramsTheFullPanel : Prop :=
  ∀ s : State, s.life = .ready → s.cfg.valid = true →
    ∃ t, exec .closewindow s = .next t ∧
      t = { s with
        px1 := t.px1, py1 := t.py1, px2 := t.px2, py2 := t.py2, hs := t.hs, he := t.he, vs := t.vs, ve := t.ve
        pins := t.pins, out := t.out, trace := t.trace } ∧
      t.hs.toNat = 0 ∧ t.he.toNat + 1 = s.cfg.w ∧ t.vs.toNat = 0 ∧ t.ve.toNat + 1 = s.cfg.h ∧
      (t.px1.toNat, t.py1.toNat) = transform s.cfg s.orient 0 0 ∧
      (t.px2.toNat, t.py2.toNat) =
        transform s.cfg s.orient (sizeX s.cfg s.orient - 1) (sizeY s.cfg s.orient - 1) ∧
      t.pins = { s.pins with
        cs := !s.cfg.csActive, dc := s.cfg.dcCommand, wr := true, d := s.cfg.regmap.ramData } ∧
      t.trace = s.trace ++
        windowEvents s.cfg 0 (BitVec.ofNat 16 (s.cfg.w - 1)) 0 (BitVec.ofNat 16 (s.cfg.h - 1)) ∧
      t.out = (windowEvents s.cfg 0 (BitVec.ofNat 16 (s.cfg.w - 1)) 0
        (BitVec.ofNat 16 (s.cfg.h - 1))).foldl (outAfter s.cfg) s.out

/-- 43_geometry R180: `SETPOINT` in range writes the X address, the Y address and the colour, in that order,
and no window register. -/
def Obligations.SetpointWritesOnePixel : Prop :=
  ∀ (s : State) (x y color : Word), s.life = .ready → s.cfg.valid = true →
    inRange s.cfg s.orient x y = true →
    ∃ t, exec (.setpoint x y color) s = .next t ∧
      t = { s with px1 := t.px1, py1 := t.py1, pins := t.pins, out := t.out, trace := t.trace } ∧
      (t.px1.toNat, t.py1.toNat) = transform s.cfg s.orient x.toNat y.toNat ∧
      t.pins = { s.pins with
        cs := !s.cfg.csActive, dc := !s.cfg.dcCommand, wr := true, d := color.extractLsb' 0 8 } ∧
      ∃ evs, evs = regWrite s.cfg s.cfg.regmap.xRamAddr t.px1 ++ regWrite s.cfg s.cfg.regmap.yRamAddr t.py1 ++
          regWrite s.cfg s.cfg.regmap.ramData color ∧
        t.trace = s.trace ++ evs ∧ t.out = evs.foldl (outAfter s.cfg) s.out

/-- 43_geometry R182, R184: `FASTFILL` in range sorts the corners, programs their window, and sends the
colour once for each pixel of the rectangle, each in a bracket of its own or all in one; it leaves `COUNT`
at 0. That the sort is on the operand registers is the model's choice (log entry 13). -/
def Obligations.FastfillStreamsTheRectangle : Prop :=
  ∀ (s : State) (x1 y1 x2 y2 color : Word), s.life = .ready → s.cfg.valid = true →
    inRange s.cfg s.orient x1 y1 = true → inRange s.cfg s.orient x2 y2 = true →
    ∃ t, exec (.fastfill x1 y1 x2 y2 color) s = .next t ∧
      t = { s with
        x0 := t.x0, x1 := t.x1, x2 := t.x2, x3 := t.x3, count := 0
        px1 := t.px1, py1 := t.py1, px2 := t.px2, py2 := t.py2, hs := t.hs, he := t.he, vs := t.vs, ve := t.ve
        pins := t.pins, out := t.out, trace := t.trace } ∧
      t.x0.toNat = min x1.toNat x2.toNat ∧ t.x2.toNat = max x1.toNat x2.toNat ∧
      t.x1.toNat = min y1.toNat y2.toNat ∧ t.x3.toNat = max y1.toNat y2.toNat ∧
      (t.px1.toNat, t.py1.toNat) = transform s.cfg s.orient t.x0.toNat t.x1.toNat ∧
      (t.px2.toNat, t.py2.toNat) = transform s.cfg s.orient t.x2.toNat t.x3.toNat ∧
      t.hs.toNat = min t.px1.toNat t.px2.toNat ∧ t.he.toNat = max t.px1.toNat t.px2.toNat ∧
      t.vs.toNat = min t.py1.toNat t.py2.toNat ∧ t.ve.toNat = max t.py1.toNat t.py2.toNat ∧
      t.pins = { s.pins with
        cs := !s.cfg.csActive, dc := !s.cfg.dcCommand, wr := true, d := color.extractLsb' 0 8 } ∧
      ∃ n evs, n = (t.x2.toNat - t.x0.toNat + 1) * (t.x3.toNat - t.x1.toNat + 1) ∧
        evs = windowEvents s.cfg t.hs t.he t.vs t.ve ++
          (if s.cfg.fillOneBracket then
            [.sig .dc (!s.cfg.dcCommand), .sig .cs s.cfg.csActive] ++
              (List.replicate n (dataBytes (color.extractLsb' 8 8) (color.extractLsb' 0 8))).flatten ++
              [.sig .cs (!s.cfg.csActive)]
          else (List.replicate n (dataWrite s.cfg (color.extractLsb' 8 8) (color.extractLsb' 0 8))).flatten) ∧
        t.trace = s.trace ++ evs ∧ t.out = evs.foldl (outAfter s.cfg) s.out

/-- 43_geometry R182 (corner cases): the number of pixels a fill sends, the value it loads into `COUNT`, is the
area of the physical window, at least 1 and at most the panel. -/
def Obligations.FillSendsTheWindowArea : Prop :=
  ∀ (s t : State) (x1 y1 x2 y2 color : Word), s.cfg.valid = true →
    exec (.fastfill x1 y1 x2 y2 color) s = .next t →
    let n := (t.he.toNat - t.hs.toNat + 1) * (t.ve.toNat - t.vs.toNat + 1)
    fillCount (minWord x1 x2) (minWord y1 y2) (maxWord x1 x2) (maxWord y1 y2) = n ∧
      t.trace = s.trace ++ windowEvents s.cfg t.hs t.he t.vs t.ve ++ fillEvents s.cfg color n ∧
      1 ≤ n ∧ n ≤ s.cfg.w * s.cfg.h

/-! ## Start-up, sleep, identification -/

/-- 44_lifecycle R200, R203: `BEGIN` from `Uninit` completes: its trace is, in order, `CFG`, the reset pulse
when pulsed, the steps of `INIT_SEQ`, the full window and the clear; it leaves `Ready`, orientation 1, the
full-screen window, CS inactive, WR at 1, DC at data, RD idle, and RST idle when pulsed. The calibration
constants are the model's free value (log entry 11). When hardwired there is no RST pin (10_state R29); that
its field stays as it was is the model's choice (log entry 22). -/
def Obligations.BeginBringsTheBlockUp : Prop :=
  ∀ s : State, s.life = .uninit → s.cfg.valid = true →
    ∃ t, exec .begin s = .next t ∧
      t = { s with
        life := .ready, orient := 1, pinsConfigured := true, count := 0, seqPc := s.cfg.initSeq.length
        x0 := 0, x1 := 0, x2 := BitVec.ofNat 16 (s.cfg.w - 1), x3 := BitVec.ofNat 16 (s.cfg.h - 1)
        x4 := s.cfg.clearColor
        px1 := BitVec.ofNat 16 (s.cfg.w - 1), py1 := BitVec.ofNat 16 (s.cfg.h - 1), px2 := 0, py2 := 0
        hs := 0, he := BitVec.ofNat 16 (s.cfg.w - 1), vs := 0, ve := BitVec.ofNat 16 (s.cfg.h - 1)
        touchCal := if s.cfg.hasTouch then Config.touchCalibration else s.touchCal
        pins := t.pins, out := t.out, trace := t.trace } ∧
      t.pins.cs = (!s.cfg.csActive) ∧ t.pins.wr = true ∧ t.pins.dc = (!s.cfg.dcCommand) ∧
      t.pins.rd = s.cfg.rdIdle ∧ t.pins.d = s.cfg.clearColor.extractLsb' 0 8 ∧
      (s.cfg.resetMode = .pulsed → t.pins.rst = !s.cfg.rstActive) ∧
      (s.cfg.resetMode = .hardwired → t.pins.rst = s.pins.rst) ∧
      ∃ evs, evs = [.cfg] ++
          (if s.cfg.resetMode = .pulsed then
            [.sig .rst s.cfg.rstActive, .wait s.cfg.tRstLow, .sig .rst (!s.cfg.rstActive)] else []) ++
          s.cfg.initSeq.flatMap (fun st => match st with
            | .write reg val => regWrite s.cfg reg val
            | .delay d => [.wait d]) ++
          windowEvents s.cfg 0 (BitVec.ofNat 16 (s.cfg.w - 1)) 0 (BitVec.ofNat 16 (s.cfg.h - 1)) ++
          fillEvents s.cfg s.cfg.clearColor (s.cfg.w * s.cfg.h) ∧
        t.trace = s.trace ++ evs ∧ t.out = evs.foldl (outAfter s.cfg) s.out

/-- 44_lifecycle R203, 70_reset_and_hazards R271, 40_port_abstraction R116: with the decided configuration `BEGIN` is
691 588 events when pulsed and 691 585 when hardwired, and a full-screen fill 691 271. -/
def Obligations.DecidedStartUpCosts : Prop :=
  ∀ (s t : State) (p : OpenParams), s.cfg = Cfg.decided p →
    (exec .begin s = .next t →
      t.trace.length = s.trace.length + (if p.resetMode = .pulsed then 691588 else 691585)) ∧
    ∀ color, s.orient = 1 → exec (.fastfill 0 0 319 239 color) s = .next t →
      t.trace.length = s.trace.length + 691271

/-- 60_exceptions R227, 44_lifecycle R202, R203: `BEGIN` waits exactly twice when pulsed, once when
hardwired, never for less than the floors. -/
def Obligations.BeginMakesTheTwoWaits : Prop :=
  ∀ s : State, s.life = .uninit → s.cfg.valid = true →
    15000 ≤ s.cfg.tRstLow ∧ 30000000 ≤ s.cfg.tSlpout ∧
    ∃ t evs, exec .begin s = .next t ∧ t.trace = s.trace ++ evs ∧
      evs.filter Event.isWait =
        (if s.cfg.resetMode = .pulsed then [.wait s.cfg.tRstLow] else []) ++ [.wait s.cfg.tSlpout]

/-- 42_register_interface R156, 70_reset_and_hazards R261: in the trace of `BEGIN` the write that leaves
sleep is followed at once by a `WAIT` of at least 30 ms, and nothing in the whole trace is sent sooner than
30 ms after a write that may leave sleep (which values may: log entry 29). -/
def Obligations.BeginKeepsTheSleepSettle : Prop :=
  ∀ s : State, s.life = .uninit → s.trace = [] → s.cfg.valid = true →
    ∃ t, exec .begin s = .next t ∧
      (∃ before n after, t.trace =
          before ++ regWrite s.cfg s.cfg.regmap.sleepMode s.cfg.sleepOut ++ [.wait n] ++ after ∧
        30000000 ≤ n) ∧
      settleKept s.cfg none (timed s.cfg t.trace) = true ∧
      .item (.write (s.cfg.regmap.sleepMode.setWidth 16) s.cfg.sleepOut) ∈ timed s.cfg t.trace

/-- 44_lifecycle R207: `SETINTENSITY`, opcode 0x32, is accepted only in `Ready`, changes nothing and
completes, for every level. -/
def Obligations.SetintensityHasNoEffect : Prop :=
  ∀ (s : State) (level : Byte),
    (encode (.setintensity level)).extractLsb' 88 8 = 0x32 ∧
      (s.life = .ready → exec (.setintensity level) s = .next s) ∧
      (s.life ≠ .ready → exec (.setintensity level) s = .refused (.outOfLifecycle s.life))

/-- 44_lifecycle R208: `WHOAMI`, opcode 0x33, in every value of `LIFE`, presents `ID_STRING`, the same
every time, and leaves the trace and everything else alone; like every command it is taken only when `BUSY`
is 0. -/
def Obligations.WhoamiPresentsTheIdString : Prop :=
  (encode .whoami).extractLsb' 88 8 = 0x33 ∧
    (∀ s : State, exec .whoami s = .next { s with responses := s.responses ++ [.identity s.cfg.idString] }) ∧
    ∀ s : State, s.busy = true → ∃ t, step s = .next t ∧ t.cmds = s.cmds

/-- 44_lifecycle R201, R210: between steps `LIFE` only goes from `Uninit` to `Ready`, by `BEGIN`; nothing
leaves `Ready`. -/
def Obligations.OnlyBeginLeavesUninit : Prop :=
  ∀ s t : State, LifeInv s → step s = .next t →
    t.life = s.life ∨
      (s.life = .uninit ∧ t.life = .ready ∧ ∃ w rest, s.cmds = w :: rest ∧ decode w = .ok .begin)

/-! ## The touch sampler -/

/-- 60_exceptions R232, R233, 44_lifecycle R209: with touch present `READTOUCH` completes in the first pass, and
a sampler at work in a later pass, that measures a triple whose samples agree: a value between the two
samples for each axis, and the pressure reading. The model's choices: which value between is free (log entry
9), the order X, Y, pressure and the one pressure reading (log entry 10), one triple a step (log entry 5),
which electrode is sampled (log entry 28). -/
def Obligations.ReadtouchReturnsAnAgreeingTriple : Prop :=
  ∀ (s : State) (x : Triple) (rest : List Reading), x.inScale s.cfg → s.adcIn = x.readings ++ rest →
    readingDiff x.xa x.xb ≤ s.cfg.touchNoise → readingDiff x.ya x.yb ≤ s.cfg.touchNoise →
    (s.life = .ready → s.cfg.hasTouch = true → s.cfg.touchRetryCap ≠ some 0 →
      ∃ t p, exec .readtouch s = .next t ∧
        t = { s with
          rt0 := t.rt0, rt1 := t.rt1, rt2 := x.z, sampling := none, adcIn := rest, freeIndex := t.freeIndex
          touchTrace := s.touchTrace ++ tripleEvents p x
          responses := s.responses ++ [.touch t.rt0 t.rt1 x.z] } ∧
        Between x.xa x.xb t.rt0 ∧ Between x.ya x.yb t.rt1) ∧
    ∀ k, s.busy = true → s.sampling = some k → (∀ n, s.cfg.touchRetryCap = some n → k < n) →
      ∃ t p, step s = .next t ∧
        t = { s with
          busy := false
          rt0 := t.rt0, rt1 := t.rt1, rt2 := x.z, sampling := none, adcIn := rest, freeIndex := t.freeIndex
          touchTrace := s.touchTrace ++ tripleEvents p x
          responses := s.responses ++ [.touch t.rt0 t.rt1 x.z] } ∧
        Between x.xa x.xb t.rt0 ∧ Between x.ya x.yb t.rt1

/-- 60_exceptions R232, R234: a triple whose same-axis samples differ by more than the threshold is thrown
away whole, in the first pass of `READTOUCH` and in a later one: no register of the result changes, nothing
is presented, the sampler stays at work and `BUSY` stays 1. The model's choices: the order X, Y, pressure and
the one pressure reading (log entry 10), one triple a step (log entry 5), which electrode is sampled (log
entry 28). -/
def Obligations.DisagreeingTriplesAreThrownAway : Prop :=
  ∀ (s : State) (x : Triple) (rest : List Reading), x.inScale s.cfg → s.adcIn = x.readings ++ rest →
    s.cfg.touchNoise < readingDiff x.xa x.xb ∨ s.cfg.touchNoise < readingDiff x.ya x.yb →
    (s.life = .ready → s.cfg.hasTouch = true → s.cfg.touchRetryCap ≠ some 0 →
      ∃ t p, exec .readtouch s = .next t ∧
        t = { s with
          sampling := some 1, adcIn := rest, freeIndex := t.freeIndex
          touchTrace := s.touchTrace ++ tripleEvents p x } ∧
        ∀ (u : State) (w : CmdWord) (ws : List CmdWord), u.busy = false → u.cmds = w :: ws →
          decode w = .ok .readtouch → u.accept w ws = s → step u = .next t ∧ t.busy = true) ∧
    ∀ k, s.busy = true → s.sampling = some k → (∀ n, s.cfg.touchRetryCap = some n → k < n) →
      ∃ t p, step s = .next t ∧
        t = { s with
          sampling := some (k + 1), adcIn := rest, freeIndex := t.freeIndex
          touchTrace := s.touchTrace ++ tripleEvents p x }

/-- 60_exceptions R231, R232, R235: the sampler never returns a triple whose same-axis samples differ by more
than the threshold: every touch response of a step was measured in it, and its samples agree. In each axis
phase one pair is driven, one electrode high and the other low, the other pair floats or is sampled, and no
pin of the display bus is touched. The order X, Y, pressure and the one pressure reading are the model's
choice (log entry 10), like the sampled electrode (log entry 28). -/
def Obligations.SamplerNeverReturnsADisagreement : Prop :=
  (∀ (s t : State) (r0 r1 r2 : Reading), step s = .next t →
    t.responses = s.responses ++ [.touch r0 r1 r2] →
    ∃ (p : PhaseChoice) (x : Triple), t.touchTrace = s.touchTrace ++ tripleEvents p x ∧
      readingDiff x.xa x.xb ≤ s.cfg.touchNoise ∧ readingDiff x.ya x.yb ≤ s.cfg.touchNoise ∧
      Between x.xa x.xb r0 ∧ Between x.ya x.yb r1 ∧ r2 = x.z ∧ x.inScale s.cfg) ∧
    ∀ (c : Cfg) (m : TouchPinMap), c.touchPinsOk m = true →
      (∀ q ∈ c.pinmap.places c.resetMode, ∀ e, pinState m e q = none) ∧
      ∀ b d : Bool,
        m.places.map (pinState m (driveX b)) =
          [some (if b then .high else .low), some (if b then .low else .high), some .floating, some .floating] ∧
        m.places.map (pinState m (senseX b d)) =
          [some (if b then .high else .low), some (if b then .low else .high),
            some (if d then .floating else .sampled), some (if d then .sampled else .floating)] ∧
        m.places.map (pinState m (driveY b)) =
          [some .floating, some .floating, some (if b then .high else .low), some (if b then .low else .high)] ∧
        m.places.map (pinState m (senseY b d)) =
          [some (if d then .floating else .sampled), some (if d then .sampled else .floating),
            some (if b then .high else .low), some (if b then .low else .high)]

/-- 60_exceptions R234: with no cap, readings that never agree, whatever they are, keep the block busy for as
many steps as they last, with no response, no result and no command accepted. One triple a step is the
model's choice (log entry 5), like the five readings of a triple (log entry 10). -/
def Obligations.ReadtouchMayNeverFinish : Prop :=
  ∀ (s : State) (k : Nat) (xs : List Triple) (rest : List Reading), s.busy = true → s.sampling = some k →
    s.cfg.touchRetryCap = none →
    (∀ x ∈ xs, x.inScale s.cfg ∧
      (s.cfg.touchNoise < readingDiff x.xa x.xb ∨ s.cfg.touchNoise < readingDiff x.ya x.yb)) →
    s.adcIn = xs.flatMap Triple.readings ++ rest →
    ∃ t, Host.Core.run Sys2Proof.core xs.length s = .next t ∧ t.busy = true ∧
      t.sampling = some (k + xs.length) ∧ t.responses = s.responses ∧ t.rt0 = s.rt0 ∧ t.rt1 = s.rt1 ∧
      t.rt2 = s.rt2 ∧ t.cmds = s.cmds ∧ t.trace = s.trace ∧ t.adcIn = rest

/-- 60_exceptions R235: with a cap, after that many triples thrown away the result is `unstable`, at once where
the cap is 0. That `RT` keeps its value, and that a cap of 0 measures nothing, is the model's reading (log
entry 12). -/
def Obligations.CappedSamplerGivesUnstable : Prop :=
  (∀ (s : State) (n : Nat), s.busy = true → s.sampling = some n → s.cfg.touchRetryCap = some n →
    step s = .next { s with busy := false, sampling := none, responses := s.responses ++ [.unstable] }) ∧
    ∀ s : State, s.life = .ready → s.cfg.hasTouch = true → s.cfg.touchRetryCap = some 0 →
      exec .readtouch s = .next { s with sampling := none, responses := s.responses ++ [.unstable] }

/-! ## The trace and its readings -/

/-- 10_state R29, 20_memory R59, R60, 00_scope R6, 10_state R31: a step only appends to the trace, the pins and
the output registers move by the appended events and by nothing else. No meaning changes the configuration,
and a step of the machine is the step function of the spec, with the configuration, the command list and the
oracle as its parameters (10_state R20), on the block; that the machine carries them beside the block is the
interface's form (log entries 1, 5, 8). -/
def Obligations.StepsAppendToTheTrace : Prop :=
  (∀ s t : State, step s = .next t →
    ∃ evs, t.trace = s.trace ++ evs ∧ t.pins = evs.foldl (pinsAfter s.cfg) s.pins ∧
      t.out = evs.foldl (outAfter s.cfg) s.out ∧ ∃ rs, t.responses = s.responses ++ rs) ∧
    (∀ (i : Instr) (s t : State), exec i s = .next t → t.cfg = s.cfg) ∧
    (∀ s t : State, step s = .next t ↔
      t.cfg = s.cfg ∧ stepBlock s.cfg s.toInputs s.toBlock = .next (t.toBlock, t.toInputs)) ∧
    ∀ (s : State) (r : Refusal), step s = .refused r ↔ stepBlock s.cfg s.toInputs s.toBlock = .refused r

/-- 10_state R34: the block keeps no record of what it sent: two states with one configuration and one
orientation put the same events out for a command, whatever went before. -/
def Obligations.EventsDoNotDependOnHistory : Prop :=
  ∀ (i : Instr) (s u s' u' : State), s.cfg = u.cfg → s.orient = u.orient → exec i s = .next s' →
    exec i u = .next u' → ∃ evs, s'.trace = s.trace ++ evs ∧ u'.trace = u.trace ++ evs

/-- 20_memory R64, 41_bus_protocol R137 (e), (g), 60_exceptions R227: RD never moves; only `BEGIN`
configures the pins, moves RST or waits. -/
def Obligations.OnlyBeginResetsAndWaits : Prop :=
  ∀ (i : Instr) (s t : State), exec i s = .next t →
    ∃ evs, t.trace = s.trace ++ evs ∧ (∀ e ∈ evs, Event.isSig .rd e = false) ∧
      (i ≠ .begin → ∀ e ∈ evs, e ≠ .cfg ∧ Event.isSig .rst e = false ∧ Event.isWait e = false)

/-- 30_encoding R90, R91, 41_bus_protocol R130 to R133: the bytes the controller latches from the commands
of the bus engine and the register encoder. -/
def Obligations.BusCommandsReadAsTheirBytes : Prop :=
  ∀ s t : State, TraceInv s → s.life = .ready →
    let c := s.cfg
    (∀ cmd, exec (.wrcmd cmd) s = .next t →
      l1 c t.trace = l1 c s.trace ++
        (if c.cmdXfers = .two then [.cmd (cmd.extractLsb' 8 8)] else []) ++ [.cmd (cmd.extractLsb' 0 8)]) ∧
    (∀ hi lo, exec (.wrdata88 hi lo) s = .next t → l1 c t.trace = l1 c s.trace ++ [.dat hi, .dat lo]) ∧
    (∀ v, exec (.wrdata v) s = .next t →
      l1 c t.trace = l1 c s.trace ++ [.dat (v.extractLsb' 8 8), .dat (v.extractLsb' 0 8)]) ∧
    (∀ cmd hi lo, exec (.wrcmddata cmd hi lo) s = .next t →
      l1 c t.trace = l1 c s.trace ++
        (if c.cmdXfers = .two then [.cmd (cmd.extractLsb' 8 8)] else []) ++
        [.cmd (cmd.extractLsb' 0 8), .dat hi, .dat lo]) ∧
    (∀ reg v, exec (.wrreg reg v) s = .next t →
      l1 c t.trace = l1 c s.trace ++ (if c.cmdXfers = .two then [.cmd 0x00] else []) ++
        [.cmd reg, .dat (v.extractLsb' 8 8), .dat (v.extractLsb' 0 8)])

/-- 41_bus_protocol R132 (95_test_vectors E1): at L1 `WRCMDDATA` is `WRCMD` followed by `WRDATA`. -/
def Obligations.CombinedWriteReadsAsTheTwo : Prop :=
  ∀ (s : State) (cmd : Word) (hi lo : Byte), TraceInv s → s.life = .ready →
    ∃ t u v, exec (.wrcmddata cmd hi lo) s = .next t ∧ exec (.wrcmd cmd) s = .next u ∧
      exec (.wrdata (hi ++ lo)) u = .next v ∧ l1 s.cfg t.trace = l1 s.cfg v.trace ∧
      t.trace.length + 2 = v.trace.length

/-- 30_encoding R91, R92, 43_geometry R176, R178, R180: the register writes the controller reads from
`WRREG`, `SETBACKLIGHT`, `SETWINDOW`, `CLOSEWINDOW` and `SETPOINT`. -/
def Obligations.CommandsReadAsRegisterWrites : Prop :=
  ∀ s t : State, TraceInv s → WholeWords s → s.life = .ready →
    let c := s.cfg
    (∀ reg v, exec (.wrreg reg v) s = .next t → l2 c t.trace = l2 c s.trace ++ registerWrites reg v) ∧
    (∀ flag, exec (.setbacklight flag) s = .next t →
      l2 c t.trace = l2 c s.trace ++
        registerWrites c.regmap.sleepMode (if flag = 1 then c.sleepOut else c.sleepIn)) ∧
    (∀ x1 y1 x2 y2, exec (.setwindow x1 y1 x2 y2) s = .next t →
      l2 c t.trace = l2 c s.trace ++ windowWrites c t.hs t.he t.vs t.ve) ∧
    (exec .closewindow s = .next t → l2 c t.trace = l2 c s.trace ++ windowWrites c t.hs t.he t.vs t.ve) ∧
    ∀ x y color, exec (.setpoint x y color) s = .next t →
      l2 c t.trace = l2 c s.trace ++ registerWrites c.regmap.xRamAddr t.px1 ++
        registerWrites c.regmap.yRamAddr t.py1 ++ registerWrites c.regmap.ramData color

/-- 43_geometry R183: a fill adds exactly `(|x2-x1|+1)*(|y2-y1|+1)` pixels to L2, each of the colour, and
after the RAM-data command twice that many data bytes to L1, high byte before low; on a 320 by 240 panel
both factors are at most 320 and the product fits 17 bits. -/
def Obligations.FastfillCountLaw : Prop :=
  ∀ (s t : State) (x1 y1 x2 y2 color : Word), TraceInv s → WholeWords s → s.cfg.valid = true →
    exec (.fastfill x1 y1 x2 y2 color) s = .next t →
    let w := (x2.toNat - x1.toNat) + (x1.toNat - x2.toNat) + 1
    let h := (y2.toNat - y1.toNat) + (y1.toNat - y2.toNat) + 1
    (∃ items, l2 s.cfg t.trace = l2 s.cfg s.trace ++ items ∧
      items = windowWrites s.cfg t.hs t.he t.vs t.ve ++
        List.replicate (w * h) (.write (s.cfg.regmap.ramData.setWidth 16) color) ∧
      items.filter (isPixel s.cfg) =
        List.replicate (w * h) (.write (s.cfg.regmap.ramData.setWidth 16) color)) ∧
    (∃ before bytes, l1 s.cfg t.trace =
        l1 s.cfg s.trace ++ before ++ [.cmd s.cfg.regmap.ramData] ++ bytes ∧
      bytes = (List.replicate (w * h) [.dat (color.extractLsb' 8 8), .dat (color.extractLsb' 0 8)]).flatten ∧
      bytes.length = 2 * (w * h)) ∧
    (s.cfg.w = 320 → s.cfg.h = 240 → w ≤ 320 ∧ h ≤ 320 ∧ w * h < 2 ^ 17)

/-- 43_geometry R184: whether chip-select is released between the pixels of a fill cannot be seen at L1. -/
def Obligations.FillFramingIsInvisible : Prop :=
  ∀ (s t : State) (b : Bool) (x1 y1 x2 y2 color : Word), TraceInv s →
    exec (.fastfill x1 y1 x2 y2 color) s = .next t →
    ∃ u, exec (.fastfill x1 y1 x2 y2 color) { s with cfg := { s.cfg with fillOneBracket := b } } = .next u ∧
      l1 s.cfg u.trace = l1 s.cfg t.trace

/-- 44_lifecycle R200 (95_test_vectors B3): `BEGIN` from reset reads as the register writes of `INIT_SEQ`,
the full window, and one pixel of `CLEAR_COLOR` for every pixel of the panel. -/
def Obligations.BeginReadsAsStartUpAndClear : Prop :=
  ∀ s : State, s.life = .uninit → s.trace = [] → s.cfg.valid = true →
    ∃ t, exec .begin s = .next t ∧
      l2 s.cfg t.trace = initWrites s.cfg ++
        windowWrites s.cfg 0 (BitVec.ofNat 16 (s.cfg.w - 1)) 0 (BitVec.ofNat 16 (s.cfg.h - 1)) ++
        pixelWrites s.cfg s.cfg.clearColor (s.cfg.w * s.cfg.h)


/-- 20_memory R51: a command other than the three that send the index the host gives sends only indices of the
table of 30_encoding R93. For `BEGIN` this is a condition on `INIT_SEQ`, which R153 leaves open for the VCOM
registers (log entry 20). -/
def Obligations.OnlyRawCommandsSendOtherIndices : Prop :=
  ∀ (i : Instr) (s t : State), TraceInv s → WholeWords s → s.cfg.valid = true → sendsHostIndex i = false →
    exec i s = .next t →
    ∃ items, l2 s.cfg t.trace = l2 s.cfg s.trace ++ items ∧ ∀ r, .sel r ∈ items → listed s.cfg r = true

/-- 20_memory R62, 70_reset_and_hazards R264: a data word goes to the index sent last; before any index it
reads as two `BAD`. -/
def Obligations.DataWordsGoToTheSelectedRegister : Prop :=
  ∀ (s t : State) (v : Word), TraceInv s → WholeWords s → exec (.wrdata v) s = .next t →
    (∀ r, (l2After s.cfg L2State.start (l1 s.cfg s.trace)).idx = some r →
      l2 s.cfg t.trace = l2 s.cfg s.trace ++ [.write r v]) ∧
    ((l2After s.cfg L2State.start (l1 s.cfg s.trace)).idx = none →
      l2 s.cfg t.trace = l2 s.cfg s.trace ++ [.bad, .bad])

/-- 70_reset_and_hazards R264: with commands of one byte or of two, `RAM_DATA` is the selected index after a
command exactly as R264 says; a host that keeps R264's rule, `SETWINDOW` and no command byte since, has it
selected whenever it may stream, and the data word it then sends is a pixel. -/
def Obligations.SelectedIndexAfterACommand : Prop :=
  ∀ (i : Instr) (s t : State), TraceInv s → WholeWords s → s.cfg.valid = true → s.life = .ready →
    exec i s = .next t →
    let idx := fun u : State => (l2After s.cfg L2State.start (l1 s.cfg u.trace)).idx
    let ram := some (s.cfg.regmap.ramData.setWidth 16)
    (idx t = ram ↔ selectsRam s.cfg (decide (idx s = ram)) i = true) ∧
      ∀ may : Bool, (may = true → idx s = ram) →
        (streamOpen may i = true → idx t = ram) ∧
        (streamKept may [i] = true → isDataWord i = true →
          ∃ v, l2 s.cfg t.trace = l2 s.cfg s.trace ++ [.write (s.cfg.regmap.ramData.setWidth 16) v])

/-! ## Invariants -/

/-- 44_lifecycle R201, 10_state R26, R30: every step keeps the life cycle and the handshake in order. -/
def Obligations.EveryStepKeepsLifeInv : Prop := ∀ s t : State, LifeInv s → step s = .next t → LifeInv t

/-- 41_bus_protocol R136, R137, 20_memory R54: every step keeps the protocol: the trace obeys the rules (a)
to (f) of R137, and between commands CS is inactive, WR is 1, RD and RST are idle. -/
def Obligations.EveryStepKeepsTheProtocol : Prop :=
  ∀ s t : State, s.cfg.valid = true → TraceInv s → step s = .next t → TraceInv t

/-- 40_port_abstraction R117, R118, R120: under both strategies, every step keeps each physical output bit
equal to the logical signal that lives there. -/
def Obligations.EveryStepKeepsThePorts : Prop :=
  ∀ s t : State, s.cfg.valid = true → PortInv s → step s = .next t → PortInv t

/-- 20_memory R54, R62: no command leaves half a word on the bus. -/
def Obligations.EveryStepKeepsWholeWords : Prop :=
  ∀ s t : State, s.cfg.valid = true → TraceInv s → WholeWords s → step s = .next t → WholeWords t

/-- 43_geometry R182, 42_register_interface R154: every step keeps the counters of finished commands. The
value 0 of `COUNT` at reset is the model's choice (log entry 4). -/
def Obligations.EveryStepKeepsTheCounters : Prop :=
  ∀ s t : State, CountersInv s → step s = .next t → CountersInv t

/-- 10_state R38: the machine after reset is a valid configuration in `Uninit`, not busy, driving nothing,
with an empty trace, and it meets every invariant. The register values not named here are the model's
(log entries 2, 3, 4). -/
def Obligations.ResetMeetsTheInvariants : Prop :=
  State.reset.cfg.valid = true ∧ State.reset.life = .uninit ∧ State.reset.busy = false ∧
    State.reset.pinsConfigured = false ∧ State.reset.trace = [] ∧ LifeInv State.reset ∧
    TraceInv State.reset ∧ PortInv State.reset ∧ WholeWords State.reset ∧ CountersInv State.reset

/-! ## The output registers -/

/-- 40_port_abstraction R119: the lookup table has 256 entries, each the pattern of the conditional-bit-test
implementation, and the pattern the direct strategy uses is that pattern for every byte. -/
def Obligations.LookupTableMatchesBitTests : Prop :=
  ∀ (m : PinMap) (p : Nat), (lut m p).length = 256 ∧
    ∀ b : Byte, (∃ v, (lut m p)[b.toNat]? = some v ∧
      ∀ k, Nat.testBit v k = m.data.zipIdx.any fun x => x.1.port == p && x.1.bit == k && b.getLsbD x.2) ∧
      ∀ k, Nat.testBit (directPattern m p b) k =
        m.data.zipIdx.any fun x => x.1.port == p && x.1.bit == k && b.getLsbD x.2

/-- 40_port_abstraction R120: for every sequence of events the two strategies leave the same output
registers and the same pins, where each signal has a place of its own. -/
def Obligations.StrategiesAreIndistinguishable : Prop :=
  ∀ (c : Cfg) (o : OutFile) (p : Pins) (evs : List Event), c.pinsOk = true → OutFile.wf o = true →
    evs.foldl (outAfter { c with portStrategy := .generic }) o =
        evs.foldl (outAfter { c with portStrategy := .direct }) o ∧
      evs.foldl (pinsAfter { c with portStrategy := .generic }) p =
        evs.foldl (pinsAfter { c with portStrategy := .direct }) p

/-! ## The panel -/

/-- 20_memory R67, R68, 43_geometry R182, 70_reset_and_hazards R261: on a panel that is awake and was left
alone for the time it was owed, whose controller stores and advances as R67 says with any scan order that
fills the window, a fill paints exactly the images of the points of the rectangle the host named, with the
colour, and leaves every other pixel as it was. `d` is the host's time before the command. The reading of the
controller is the model's (log entry 19). -/
def Obligations.FastfillPaintsTheRectangle : Prop :=
  ∀ (s t : State) (x1 y1 x2 y2 color : Word) (k : Controller) (q : Panel) (d : Nat), s.cfg.valid = true →
    TraceInv s → WholeWords s → exec (.fastfill x1 y1 x2 y2 color) s = .next t →
    q.awake = true → q.owed ≤ d →
    ScanFills (k.scan q.output q.entry) t.hs.toNat t.he.toNat t.vs.toNat t.ve.toNat
      ((t.he.toNat - t.hs.toNat + 1) * (t.ve.toNat - t.vs.toNat + 1)) →
    let inside := fun lx ly : Nat => min x1.toNat x2.toNat ≤ lx ∧ lx ≤ max x1.toNat x2.toNat ∧
      min y1.toNat y2.toNat ≤ ly ∧ ly ≤ max y1.toNat y2.toNat
    ∃ items r, timed s.cfg t.trace = timed s.cfg s.trace ++ items ∧
      Panel.run s.cfg k (q.pass d) items = some r ∧
      (∀ lx ly, inside lx ly → r.pixel (transform s.cfg s.orient lx ly) = some color) ∧
      ∀ a, (∀ lx ly, inside lx ly → a ≠ transform s.cfg s.orient lx ly) → r.pixel a = q.pixel a

/-- 70_reset_and_hazards R261, R262, 20_memory R67: on a panel that is awake and was left alone for the time it
was owed, a point inside the window the controller holds is painted where the transform puts it, and no other
pixel changes. `d` is the host's time before the command. The reading of the controller is the model's (log
entry 19). -/
def Obligations.SetpointPaintsInsideTheWindow : Prop :=
  ∀ (s t : State) (x y color : Word) (k : Controller) (q : Panel) (d : Nat), s.cfg.valid = true →
    TraceInv s → WholeWords s → exec (.setpoint x y color) s = .next t →
    q.awake = true → q.owed ≤ d → q.inWindow (transform s.cfg s.orient x.toNat y.toNat) = true →
    ∃ items r, timed s.cfg t.trace = timed s.cfg s.trace ++ items ∧
      Panel.run s.cfg k (q.pass d) items = some r ∧
      ∀ a, r.pixel a = if a = transform s.cfg s.orient x.toNat y.toNat then some color else q.pixel a

/-- 44_lifecycle R200, R202, 20_memory R67, 70_reset_and_hazards R266: `BEGIN` from reset paints every pixel of
the panel with `CLEAR_COLOR` and leaves the panel awake with the full window, on a controller that needs no
recovery time after the panel reset; where it needs one and the reset is pulsed, the block does not provide
it, and the reading has no answer. The reading of the controller is the model's (log entry 19). -/
def Obligations.BeginClearsThePanel : Prop :=
  ∀ (s : State) (k : Controller) (q : Panel), s.life = .uninit → s.trace = [] → s.cfg.valid = true →
    q.owed = 0 →
    (∀ output entry, ScanFills (k.scan output entry) 0 (s.cfg.w - 1) 0 (s.cfg.h - 1) (s.cfg.w * s.cfg.h)) →
    ∃ t, exec .begin s = .next t ∧
      (s.cfg.resetMode = .hardwired ∨ k.recovery = 0 →
        ∃ r, Panel.run s.cfg k q (timed s.cfg t.trace) = some r ∧ r.awake = true ∧
          r.hs = 0 ∧ r.he = s.cfg.w - 1 ∧ r.vs = 0 ∧ r.ve = s.cfg.h - 1 ∧
          ∀ px py, px < s.cfg.w → py < s.cfg.h → r.pixel (px, py) = some s.cfg.clearColor) ∧
      (s.cfg.resetMode = .pulsed → 0 < k.recovery →
        Panel.run s.cfg k q (timed s.cfg t.trace) = none)

/-! ## Reset and the host's contract -/

/-- 70_reset_and_hazards R250 to R252: reset gives every register its reset value and keeps the
configuration; a reset inside a command leaves a prefix of the command's events. The values the spec does
not give, and that the inputs stay, are the model's (log entries 4, 23). -/
def Obligations.ResetAbandonsTheCommand : Prop :=
  ∀ (i : Instr) (k : Nat) (s t : State), exec i s = .next t →
    s.trace ++ (resetDuring i k s).1 <+: t.trace ∧
      (resetDuring i k s).1.length = min k (t.trace.length - s.trace.length) ∧
      (resetDuring i k s).2 =
        { State.resetWith s.cfg with cmds := s.cmds, adcIn := s.adcIn, freeIndex := s.freeIndex }

/-- 70_reset_and_hazards R253, R268, 60_exceptions R225, 43_geometry R174: a host that issues `BEGIN` once
before anything but `WHOAMI`, keeps its coordinates in range and does not sample touch is never refused:
its commands all run, one a step, and none is left. -/
def Obligations.ContractKeepingRunsAreAccepted : Prop :=
  ∀ (is : List Instr) (s : State), s.busy = false → s.sampling = none → s.life = .uninit →
    s.cmds = is.map encode → lifecycleKept false is = true → coordinatesKept s.cfg s.orient is = true →
    (∀ i ∈ is, i ≠ .readtouch) →
    ∃ t, Host.Core.run Sys2Proof.core is.length s = .next t ∧ t.cmds = [] ∧ t.busy = false
end

