-- ==== Sys2Proof/Laws/Config.lean ====
section
/-! SUPPORT. The decided configuration is an instance of the block, whatever the OPEN parameters are. -/

namespace Sys2Proof

theorem orStraight_ok (m : PinMap) (mode : ResetMode) : (m.orStraight mode).ok mode = true := by
  unfold PinMap.orStraight
  split
  · assumption
  · cases mode <;> decide

/-- Whatever the OPEN parameters are, the decided configuration meets every check of 00_scope R5. -/
theorem decided_valid (p : OpenParams) : (Cfg.decided p).valid = true := by
  have h1 : (Cfg.decided p).sizeOk = true := rfl
  have h2 : (Cfg.decided p).strobeOk = true := rfl
  have h3 : (Cfg.decided p).delaysOk = true := by simp [Cfg.delaysOk, Cfg.decided]
  have h4 : (Cfg.decided p).regsOk = true := by
    rw [show (Cfg.decided p).regsOk = (Cfg.decided default).regsOk from rfl]; decide
  have h5 : (Cfg.decided p).initSeqOk = true := by
    rw [show (Cfg.decided p).initSeqOk = (Cfg.decided default).initSeqOk from rfl]; decide
  have h6 : (Cfg.decided p).pinsOk = true := by simp [Cfg.pinsOk, Cfg.decided, orStraight_ok]
  have h7 : (Cfg.decided p).touchOk = true := rfl
  simp [Cfg.valid, h1, h2, h3, h4, h5, h6, h7]

end Sys2Proof
end

