-- ==== Sys2Proof/Laws/State.lean ====
section
/-! SUPPORT. One lemma per field per update of the state, true by unfolding, so that no later proof unfolds
a record update. -/

namespace Sys2Proof.Machine

/-! Fields after `State.perform`. -/

@[simp] theorem State.perform_cfg (s : State) (evs : List Event) : (s.perform evs).cfg = s.cfg := rfl
@[simp] theorem State.perform_cmds (s : State) (evs : List Event) : (s.perform evs).cmds = s.cmds := rfl
@[simp] theorem State.perform_busy (s : State) (evs : List Event) : (s.perform evs).busy = s.busy := rfl
@[simp] theorem State.perform_life (s : State) (evs : List Event) : (s.perform evs).life = s.life := rfl
@[simp] theorem State.perform_orient (s : State) (evs : List Event) : (s.perform evs).orient = s.orient := rfl
@[simp] theorem State.perform_f (s : State) (evs : List Event) : (s.perform evs).f = s.f := rfl
@[simp] theorem State.perform_x0 (s : State) (evs : List Event) : (s.perform evs).x0 = s.x0 := rfl
@[simp] theorem State.perform_x1 (s : State) (evs : List Event) : (s.perform evs).x1 = s.x1 := rfl
@[simp] theorem State.perform_x2 (s : State) (evs : List Event) : (s.perform evs).x2 = s.x2 := rfl
@[simp] theorem State.perform_x3 (s : State) (evs : List Event) : (s.perform evs).x3 = s.x3 := rfl
@[simp] theorem State.perform_x4 (s : State) (evs : List Event) : (s.perform evs).x4 = s.x4 := rfl
@[simp] theorem State.perform_px1 (s : State) (evs : List Event) : (s.perform evs).px1 = s.px1 := rfl
@[simp] theorem State.perform_py1 (s : State) (evs : List Event) : (s.perform evs).py1 = s.py1 := rfl
@[simp] theorem State.perform_px2 (s : State) (evs : List Event) : (s.perform evs).px2 = s.px2 := rfl
@[simp] theorem State.perform_py2 (s : State) (evs : List Event) : (s.perform evs).py2 = s.py2 := rfl
@[simp] theorem State.perform_hs (s : State) (evs : List Event) : (s.perform evs).hs = s.hs := rfl
@[simp] theorem State.perform_he (s : State) (evs : List Event) : (s.perform evs).he = s.he := rfl
@[simp] theorem State.perform_vs (s : State) (evs : List Event) : (s.perform evs).vs = s.vs := rfl
@[simp] theorem State.perform_ve (s : State) (evs : List Event) : (s.perform evs).ve = s.ve := rfl
@[simp] theorem State.perform_count (s : State) (evs : List Event) : (s.perform evs).count = s.count := rfl
@[simp] theorem State.perform_seqPc (s : State) (evs : List Event) : (s.perform evs).seqPc = s.seqPc := rfl
@[simp] theorem State.perform_pinsConfigured (s : State) (evs : List Event) :
    (s.perform evs).pinsConfigured = evs.foldl configuredAfter s.pinsConfigured := rfl
@[simp] theorem State.perform_pins (s : State) (evs : List Event) :
    (s.perform evs).pins = evs.foldl (pinsAfter s.cfg) s.pins := rfl
@[simp] theorem State.perform_out (s : State) (evs : List Event) :
    (s.perform evs).out = evs.foldl (outAfter s.cfg) s.out := rfl
@[simp] theorem State.perform_rx (s : State) (evs : List Event) : (s.perform evs).rx = s.rx := rfl
@[simp] theorem State.perform_ry (s : State) (evs : List Event) : (s.perform evs).ry = s.ry := rfl
@[simp] theorem State.perform_rt0 (s : State) (evs : List Event) : (s.perform evs).rt0 = s.rt0 := rfl
@[simp] theorem State.perform_rt1 (s : State) (evs : List Event) : (s.perform evs).rt1 = s.rt1 := rfl
@[simp] theorem State.perform_rt2 (s : State) (evs : List Event) : (s.perform evs).rt2 = s.rt2 := rfl
@[simp] theorem State.perform_touchCal (s : State) (evs : List Event) :
    (s.perform evs).touchCal = s.touchCal := rfl
@[simp] theorem State.perform_sampling (s : State) (evs : List Event) :
    (s.perform evs).sampling = s.sampling := rfl
@[simp] theorem State.perform_adcIn (s : State) (evs : List Event) : (s.perform evs).adcIn = s.adcIn := rfl
@[simp] theorem State.perform_freeIndex (s : State) (evs : List Event) :
    (s.perform evs).freeIndex = s.freeIndex := rfl
@[simp] theorem State.perform_trace (s : State) (evs : List Event) :
    (s.perform evs).trace = s.trace ++ evs := rfl
@[simp] theorem State.perform_touchTrace (s : State) (evs : List Event) :
    (s.perform evs).touchTrace = s.touchTrace := rfl
@[simp] theorem State.perform_responses (s : State) (evs : List Event) :
    (s.perform evs).responses = s.responses := rfl

/-! Fields after `State.respond`. -/

@[simp] theorem State.respond_cfg (s : State) (r : Response) : (s.respond r).cfg = s.cfg := rfl
@[simp] theorem State.respond_cmds (s : State) (r : Response) : (s.respond r).cmds = s.cmds := rfl
@[simp] theorem State.respond_busy (s : State) (r : Response) : (s.respond r).busy = s.busy := rfl
@[simp] theorem State.respond_life (s : State) (r : Response) : (s.respond r).life = s.life := rfl
@[simp] theorem State.respond_orient (s : State) (r : Response) : (s.respond r).orient = s.orient := rfl
@[simp] theorem State.respond_f (s : State) (r : Response) : (s.respond r).f = s.f := rfl
@[simp] theorem State.respond_x0 (s : State) (r : Response) : (s.respond r).x0 = s.x0 := rfl
@[simp] theorem State.respond_x1 (s : State) (r : Response) : (s.respond r).x1 = s.x1 := rfl
@[simp] theorem State.respond_x2 (s : State) (r : Response) : (s.respond r).x2 = s.x2 := rfl
@[simp] theorem State.respond_x3 (s : State) (r : Response) : (s.respond r).x3 = s.x3 := rfl
@[simp] theorem State.respond_x4 (s : State) (r : Response) : (s.respond r).x4 = s.x4 := rfl
@[simp] theorem State.respond_px1 (s : State) (r : Response) : (s.respond r).px1 = s.px1 := rfl
@[simp] theorem State.respond_py1 (s : State) (r : Response) : (s.respond r).py1 = s.py1 := rfl
@[simp] theorem State.respond_px2 (s : State) (r : Response) : (s.respond r).px2 = s.px2 := rfl
@[simp] theorem State.respond_py2 (s : State) (r : Response) : (s.respond r).py2 = s.py2 := rfl
@[simp] theorem State.respond_hs (s : State) (r : Response) : (s.respond r).hs = s.hs := rfl
@[simp] theorem State.respond_he (s : State) (r : Response) : (s.respond r).he = s.he := rfl
@[simp] theorem State.respond_vs (s : State) (r : Response) : (s.respond r).vs = s.vs := rfl
@[simp] theorem State.respond_ve (s : State) (r : Response) : (s.respond r).ve = s.ve := rfl
@[simp] theorem State.respond_count (s : State) (r : Response) : (s.respond r).count = s.count := rfl
@[simp] theorem State.respond_seqPc (s : State) (r : Response) : (s.respond r).seqPc = s.seqPc := rfl
@[simp] theorem State.respond_pinsConfigured (s : State) (r : Response) :
    (s.respond r).pinsConfigured = s.pinsConfigured := rfl
@[simp] theorem State.respond_pins (s : State) (r : Response) : (s.respond r).pins = s.pins := rfl
@[simp] theorem State.respond_out (s : State) (r : Response) : (s.respond r).out = s.out := rfl
@[simp] theorem State.respond_rx (s : State) (r : Response) : (s.respond r).rx = s.rx := rfl
@[simp] theorem State.respond_ry (s : State) (r : Response) : (s.respond r).ry = s.ry := rfl
@[simp] theorem State.respond_rt0 (s : State) (r : Response) : (s.respond r).rt0 = s.rt0 := rfl
@[simp] theorem State.respond_rt1 (s : State) (r : Response) : (s.respond r).rt1 = s.rt1 := rfl
@[simp] theorem State.respond_rt2 (s : State) (r : Response) : (s.respond r).rt2 = s.rt2 := rfl
@[simp] theorem State.respond_touchCal (s : State) (r : Response) : (s.respond r).touchCal = s.touchCal := rfl
@[simp] theorem State.respond_sampling (s : State) (r : Response) : (s.respond r).sampling = s.sampling := rfl
@[simp] theorem State.respond_adcIn (s : State) (r : Response) : (s.respond r).adcIn = s.adcIn := rfl
@[simp] theorem State.respond_freeIndex (s : State) (r : Response) :
    (s.respond r).freeIndex = s.freeIndex := rfl
@[simp] theorem State.respond_trace (s : State) (r : Response) : (s.respond r).trace = s.trace := rfl
@[simp] theorem State.respond_touchTrace (s : State) (r : Response) :
    (s.respond r).touchTrace = s.touchTrace := rfl
@[simp] theorem State.respond_responses (s : State) (r : Response) :
    (s.respond r).responses = s.responses ++ [r] := rfl

/-! Fields after `State.accept`. -/

@[simp] theorem State.accept_cfg (s : State) (w : CmdWord) (rest : List CmdWord) :
    (s.accept w rest).cfg = s.cfg := rfl
@[simp] theorem State.accept_cmds (s : State) (w : CmdWord) (rest : List CmdWord) :
    (s.accept w rest).cmds = rest := rfl
@[simp] theorem State.accept_busy (s : State) (w : CmdWord) (rest : List CmdWord) :
    (s.accept w rest).busy = true := rfl
@[simp] theorem State.accept_life (s : State) (w : CmdWord) (rest : List CmdWord) :
    (s.accept w rest).life = s.life := rfl
@[simp] theorem State.accept_orient (s : State) (w : CmdWord) (rest : List CmdWord) :
    (s.accept w rest).orient = s.orient := rfl
@[simp] theorem State.accept_f (s : State) (w : CmdWord) (rest : List CmdWord) :
    (s.accept w rest).f = w.fieldF := rfl
@[simp] theorem State.accept_x0 (s : State) (w : CmdWord) (rest : List CmdWord) :
    (s.accept w rest).x0 = w.fieldA := rfl
@[simp] theorem State.accept_x1 (s : State) (w : CmdWord) (rest : List CmdWord) :
    (s.accept w rest).x1 = w.fieldB := rfl
@[simp] theorem State.accept_x2 (s : State) (w : CmdWord) (rest : List CmdWord) :
    (s.accept w rest).x2 = w.fieldC := rfl
@[simp] theorem State.accept_x3 (s : State) (w : CmdWord) (rest : List CmdWord) :
    (s.accept w rest).x3 = w.fieldD := rfl
@[simp] theorem State.accept_x4 (s : State) (w : CmdWord) (rest : List CmdWord) :
    (s.accept w rest).x4 = w.fieldE := rfl
@[simp] theorem State.accept_px1 (s : State) (w : CmdWord) (rest : List CmdWord) :
    (s.accept w rest).px1 = s.px1 := rfl
@[simp] theorem State.accept_py1 (s : State) (w : CmdWord) (rest : List CmdWord) :
    (s.accept w rest).py1 = s.py1 := rfl
@[simp] theorem State.accept_px2 (s : State) (w : CmdWord) (rest : List CmdWord) :
    (s.accept w rest).px2 = s.px2 := rfl
@[simp] theorem State.accept_py2 (s : State) (w : CmdWord) (rest : List CmdWord) :
    (s.accept w rest).py2 = s.py2 := rfl
@[simp] theorem State.accept_hs (s : State) (w : CmdWord) (rest : List CmdWord) :
    (s.accept w rest).hs = s.hs := rfl
@[simp] theorem State.accept_he (s : State) (w : CmdWord) (rest : List CmdWord) :
    (s.accept w rest).he = s.he := rfl
@[simp] theorem State.accept_vs (s : State) (w : CmdWord) (rest : List CmdWord) :
    (s.accept w rest).vs = s.vs := rfl
@[simp] theorem State.accept_ve (s : State) (w : CmdWord) (rest : List CmdWord) :
    (s.accept w rest).ve = s.ve := rfl
@[simp] theorem State.accept_count (s : State) (w : CmdWord) (rest : List CmdWord) :
    (s.accept w rest).count = s.count := rfl
@[simp] theorem State.accept_seqPc (s : State) (w : CmdWord) (rest : List CmdWord) :
    (s.accept w rest).seqPc = s.seqPc := rfl
@[simp] theorem State.accept_pinsConfigured (s : State) (w : CmdWord) (rest : List CmdWord) :
    (s.accept w rest).pinsConfigured = s.pinsConfigured := rfl
@[simp] theorem State.accept_pins (s : State) (w : CmdWord) (rest : List CmdWord) :
    (s.accept w rest).pins = s.pins := rfl
@[simp] theorem State.accept_out (s : State) (w : CmdWord) (rest : List CmdWord) :
    (s.accept w rest).out = s.out := rfl
@[simp] theorem State.accept_rx (s : State) (w : CmdWord) (rest : List CmdWord) :
    (s.accept w rest).rx = s.rx := rfl
@[simp] theorem State.accept_ry (s : State) (w : CmdWord) (rest : List CmdWord) :
    (s.accept w rest).ry = s.ry := rfl
@[simp] theorem State.accept_rt0 (s : State) (w : CmdWord) (rest : List CmdWord) :
    (s.accept w rest).rt0 = s.rt0 := rfl
@[simp] theorem State.accept_rt1 (s : State) (w : CmdWord) (rest : List CmdWord) :
    (s.accept w rest).rt1 = s.rt1 := rfl
@[simp] theorem State.accept_rt2 (s : State) (w : CmdWord) (rest : List CmdWord) :
    (s.accept w rest).rt2 = s.rt2 := rfl
@[simp] theorem State.accept_touchCal (s : State) (w : CmdWord) (rest : List CmdWord) :
    (s.accept w rest).touchCal = s.touchCal := rfl
@[simp] theorem State.accept_sampling (s : State) (w : CmdWord) (rest : List CmdWord) :
    (s.accept w rest).sampling = s.sampling := rfl
@[simp] theorem State.accept_adcIn (s : State) (w : CmdWord) (rest : List CmdWord) :
    (s.accept w rest).adcIn = s.adcIn := rfl
@[simp] theorem State.accept_freeIndex (s : State) (w : CmdWord) (rest : List CmdWord) :
    (s.accept w rest).freeIndex = s.freeIndex := rfl
@[simp] theorem State.accept_trace (s : State) (w : CmdWord) (rest : List CmdWord) :
    (s.accept w rest).trace = s.trace := rfl
@[simp] theorem State.accept_touchTrace (s : State) (w : CmdWord) (rest : List CmdWord) :
    (s.accept w rest).touchTrace = s.touchTrace := rfl
@[simp] theorem State.accept_responses (s : State) (w : CmdWord) (rest : List CmdWord) :
    (s.accept w rest).responses = s.responses := rfl

/-! Fields after `State.complete`. -/

@[simp] theorem State.complete_cfg (s : State) : (s.complete).cfg = s.cfg := rfl
@[simp] theorem State.complete_cmds (s : State) : (s.complete).cmds = s.cmds := rfl
@[simp] theorem State.complete_busy (s : State) : (s.complete).busy = s.sampling.isSome := rfl
@[simp] theorem State.complete_life (s : State) : (s.complete).life = s.life := rfl
@[simp] theorem State.complete_orient (s : State) : (s.complete).orient = s.orient := rfl
@[simp] theorem State.complete_f (s : State) : (s.complete).f = s.f := rfl
@[simp] theorem State.complete_x0 (s : State) : (s.complete).x0 = s.x0 := rfl
@[simp] theorem State.complete_x1 (s : State) : (s.complete).x1 = s.x1 := rfl
@[simp] theorem State.complete_x2 (s : State) : (s.complete).x2 = s.x2 := rfl
@[simp] theorem State.complete_x3 (s : State) : (s.complete).x3 = s.x3 := rfl
@[simp] theorem State.complete_x4 (s : State) : (s.complete).x4 = s.x4 := rfl
@[simp] theorem State.complete_px1 (s : State) : (s.complete).px1 = s.px1 := rfl
@[simp] theorem State.complete_py1 (s : State) : (s.complete).py1 = s.py1 := rfl
@[simp] theorem State.complete_px2 (s : State) : (s.complete).px2 = s.px2 := rfl
@[simp] theorem State.complete_py2 (s : State) : (s.complete).py2 = s.py2 := rfl
@[simp] theorem State.complete_hs (s : State) : (s.complete).hs = s.hs := rfl
@[simp] theorem State.complete_he (s : State) : (s.complete).he = s.he := rfl
@[simp] theorem State.complete_vs (s : State) : (s.complete).vs = s.vs := rfl
@[simp] theorem State.complete_ve (s : State) : (s.complete).ve = s.ve := rfl
@[simp] theorem State.complete_count (s : State) : (s.complete).count = s.count := rfl
@[simp] theorem State.complete_seqPc (s : State) : (s.complete).seqPc = s.seqPc := rfl
@[simp] theorem State.complete_pinsConfigured (s : State) :
    (s.complete).pinsConfigured = s.pinsConfigured := rfl
@[simp] theorem State.complete_pins (s : State) : (s.complete).pins = s.pins := rfl
@[simp] theorem State.complete_out (s : State) : (s.complete).out = s.out := rfl
@[simp] theorem State.complete_rx (s : State) : (s.complete).rx = s.rx := rfl
@[simp] theorem State.complete_ry (s : State) : (s.complete).ry = s.ry := rfl
@[simp] theorem State.complete_rt0 (s : State) : (s.complete).rt0 = s.rt0 := rfl
@[simp] theorem State.complete_rt1 (s : State) : (s.complete).rt1 = s.rt1 := rfl
@[simp] theorem State.complete_rt2 (s : State) : (s.complete).rt2 = s.rt2 := rfl
@[simp] theorem State.complete_touchCal (s : State) : (s.complete).touchCal = s.touchCal := rfl
@[simp] theorem State.complete_sampling (s : State) : (s.complete).sampling = s.sampling := rfl
@[simp] theorem State.complete_adcIn (s : State) : (s.complete).adcIn = s.adcIn := rfl
@[simp] theorem State.complete_freeIndex (s : State) : (s.complete).freeIndex = s.freeIndex := rfl
@[simp] theorem State.complete_trace (s : State) : (s.complete).trace = s.trace := rfl
@[simp] theorem State.complete_touchTrace (s : State) : (s.complete).touchTrace = s.touchTrace := rfl
@[simp] theorem State.complete_responses (s : State) : (s.complete).responses = s.responses := rfl

/-! Fields after `State.logTouch`. -/

@[simp] theorem State.logTouch_cfg (s : State) (l : List TouchEvent) : (s.logTouch l).cfg = s.cfg := rfl
@[simp] theorem State.logTouch_cmds (s : State) (l : List TouchEvent) : (s.logTouch l).cmds = s.cmds := rfl
@[simp] theorem State.logTouch_busy (s : State) (l : List TouchEvent) : (s.logTouch l).busy = s.busy := rfl
@[simp] theorem State.logTouch_life (s : State) (l : List TouchEvent) : (s.logTouch l).life = s.life := rfl
@[simp] theorem State.logTouch_orient (s : State) (l : List TouchEvent) :
    (s.logTouch l).orient = s.orient := rfl
@[simp] theorem State.logTouch_f (s : State) (l : List TouchEvent) : (s.logTouch l).f = s.f := rfl
@[simp] theorem State.logTouch_x0 (s : State) (l : List TouchEvent) : (s.logTouch l).x0 = s.x0 := rfl
@[simp] theorem State.logTouch_x1 (s : State) (l : List TouchEvent) : (s.logTouch l).x1 = s.x1 := rfl
@[simp] theorem State.logTouch_x2 (s : State) (l : List TouchEvent) : (s.logTouch l).x2 = s.x2 := rfl
@[simp] theorem State.logTouch_x3 (s : State) (l : List TouchEvent) : (s.logTouch l).x3 = s.x3 := rfl
@[simp] theorem State.logTouch_x4 (s : State) (l : List TouchEvent) : (s.logTouch l).x4 = s.x4 := rfl
@[simp] theorem State.logTouch_px1 (s : State) (l : List TouchEvent) : (s.logTouch l).px1 = s.px1 := rfl
@[simp] theorem State.logTouch_py1 (s : State) (l : List TouchEvent) : (s.logTouch l).py1 = s.py1 := rfl
@[simp] theorem State.logTouch_px2 (s : State) (l : List TouchEvent) : (s.logTouch l).px2 = s.px2 := rfl
@[simp] theorem State.logTouch_py2 (s : State) (l : List TouchEvent) : (s.logTouch l).py2 = s.py2 := rfl
@[simp] theorem State.logTouch_hs (s : State) (l : List TouchEvent) : (s.logTouch l).hs = s.hs := rfl
@[simp] theorem State.logTouch_he (s : State) (l : List TouchEvent) : (s.logTouch l).he = s.he := rfl
@[simp] theorem State.logTouch_vs (s : State) (l : List TouchEvent) : (s.logTouch l).vs = s.vs := rfl
@[simp] theorem State.logTouch_ve (s : State) (l : List TouchEvent) : (s.logTouch l).ve = s.ve := rfl
@[simp] theorem State.logTouch_count (s : State) (l : List TouchEvent) : (s.logTouch l).count = s.count := rfl
@[simp] theorem State.logTouch_seqPc (s : State) (l : List TouchEvent) : (s.logTouch l).seqPc = s.seqPc := rfl
@[simp] theorem State.logTouch_pinsConfigured (s : State) (l : List TouchEvent) :
    (s.logTouch l).pinsConfigured = s.pinsConfigured := rfl
@[simp] theorem State.logTouch_pins (s : State) (l : List TouchEvent) : (s.logTouch l).pins = s.pins := rfl
@[simp] theorem State.logTouch_out (s : State) (l : List TouchEvent) : (s.logTouch l).out = s.out := rfl
@[simp] theorem State.logTouch_rx (s : State) (l : List TouchEvent) : (s.logTouch l).rx = s.rx := rfl
@[simp] theorem State.logTouch_ry (s : State) (l : List TouchEvent) : (s.logTouch l).ry = s.ry := rfl
@[simp] theorem State.logTouch_rt0 (s : State) (l : List TouchEvent) : (s.logTouch l).rt0 = s.rt0 := rfl
@[simp] theorem State.logTouch_rt1 (s : State) (l : List TouchEvent) : (s.logTouch l).rt1 = s.rt1 := rfl
@[simp] theorem State.logTouch_rt2 (s : State) (l : List TouchEvent) : (s.logTouch l).rt2 = s.rt2 := rfl
@[simp] theorem State.logTouch_touchCal (s : State) (l : List TouchEvent) :
    (s.logTouch l).touchCal = s.touchCal := rfl
@[simp] theorem State.logTouch_sampling (s : State) (l : List TouchEvent) :
    (s.logTouch l).sampling = s.sampling := rfl
@[simp] theorem State.logTouch_adcIn (s : State) (l : List TouchEvent) : (s.logTouch l).adcIn = s.adcIn := rfl
@[simp] theorem State.logTouch_freeIndex (s : State) (l : List TouchEvent) :
    (s.logTouch l).freeIndex = s.freeIndex := rfl
@[simp] theorem State.logTouch_trace (s : State) (l : List TouchEvent) : (s.logTouch l).trace = s.trace := rfl
@[simp] theorem State.logTouch_touchTrace (s : State) (l : List TouchEvent) :
    (s.logTouch l).touchTrace = s.touchTrace ++ l := rfl
@[simp] theorem State.logTouch_responses (s : State) (l : List TouchEvent) :
    (s.logTouch l).responses = s.responses := rfl

/-! Fields after `placeWindow`. -/

@[simp] theorem placeWindow_cfg (s : State) (x1 y1 x2 y2 : Word) :
    (placeWindow x1 y1 x2 y2 s).cfg = s.cfg := rfl
@[simp] theorem placeWindow_cmds (s : State) (x1 y1 x2 y2 : Word) :
    (placeWindow x1 y1 x2 y2 s).cmds = s.cmds := rfl
@[simp] theorem placeWindow_busy (s : State) (x1 y1 x2 y2 : Word) :
    (placeWindow x1 y1 x2 y2 s).busy = s.busy := rfl
@[simp] theorem placeWindow_life (s : State) (x1 y1 x2 y2 : Word) :
    (placeWindow x1 y1 x2 y2 s).life = s.life := rfl
@[simp] theorem placeWindow_orient (s : State) (x1 y1 x2 y2 : Word) :
    (placeWindow x1 y1 x2 y2 s).orient = s.orient := rfl
@[simp] theorem placeWindow_f (s : State) (x1 y1 x2 y2 : Word) : (placeWindow x1 y1 x2 y2 s).f = s.f := rfl
@[simp] theorem placeWindow_x0 (s : State) (x1 y1 x2 y2 : Word) : (placeWindow x1 y1 x2 y2 s).x0 = s.x0 := rfl
@[simp] theorem placeWindow_x1 (s : State) (x1 y1 x2 y2 : Word) : (placeWindow x1 y1 x2 y2 s).x1 = s.x1 := rfl
@[simp] theorem placeWindow_x2 (s : State) (x1 y1 x2 y2 : Word) : (placeWindow x1 y1 x2 y2 s).x2 = s.x2 := rfl
@[simp] theorem placeWindow_x3 (s : State) (x1 y1 x2 y2 : Word) : (placeWindow x1 y1 x2 y2 s).x3 = s.x3 := rfl
@[simp] theorem placeWindow_x4 (s : State) (x1 y1 x2 y2 : Word) : (placeWindow x1 y1 x2 y2 s).x4 = s.x4 := rfl
@[simp] theorem placeWindow_px1 (s : State) (x1 y1 x2 y2 : Word) :
    (placeWindow x1 y1 x2 y2 s).px1 = physX s.cfg s.orient x1 y1 := rfl
@[simp] theorem placeWindow_py1 (s : State) (x1 y1 x2 y2 : Word) :
    (placeWindow x1 y1 x2 y2 s).py1 = physY s.cfg s.orient x1 y1 := rfl
@[simp] theorem placeWindow_px2 (s : State) (x1 y1 x2 y2 : Word) :
    (placeWindow x1 y1 x2 y2 s).px2 = physX s.cfg s.orient x2 y2 := rfl
@[simp] theorem placeWindow_py2 (s : State) (x1 y1 x2 y2 : Word) :
    (placeWindow x1 y1 x2 y2 s).py2 = physY s.cfg s.orient x2 y2 := rfl
@[simp] theorem placeWindow_hs (s : State) (x1 y1 x2 y2 : Word) :
    (placeWindow x1 y1 x2 y2 s).hs = minWord (physX s.cfg s.orient x1 y1) (physX s.cfg s.orient x2 y2) := rfl
@[simp] theorem placeWindow_he (s : State) (x1 y1 x2 y2 : Word) :
    (placeWindow x1 y1 x2 y2 s).he = maxWord (physX s.cfg s.orient x1 y1) (physX s.cfg s.orient x2 y2) := rfl
@[simp] theorem placeWindow_vs (s : State) (x1 y1 x2 y2 : Word) :
    (placeWindow x1 y1 x2 y2 s).vs = minWord (physY s.cfg s.orient x1 y1) (physY s.cfg s.orient x2 y2) := rfl
@[simp] theorem placeWindow_ve (s : State) (x1 y1 x2 y2 : Word) :
    (placeWindow x1 y1 x2 y2 s).ve = maxWord (physY s.cfg s.orient x1 y1) (physY s.cfg s.orient x2 y2) := rfl
@[simp] theorem placeWindow_count (s : State) (x1 y1 x2 y2 : Word) :
    (placeWindow x1 y1 x2 y2 s).count = s.count := rfl
@[simp] theorem placeWindow_seqPc (s : State) (x1 y1 x2 y2 : Word) :
    (placeWindow x1 y1 x2 y2 s).seqPc = s.seqPc := rfl
@[simp] theorem placeWindow_pinsConfigured (s : State) (x1 y1 x2 y2 : Word) :
    (placeWindow x1 y1 x2 y2 s).pinsConfigured = s.pinsConfigured := rfl
@[simp] theorem placeWindow_pins (s : State) (x1 y1 x2 y2 : Word) :
    (placeWindow x1 y1 x2 y2 s).pins = s.pins := rfl
@[simp] theorem placeWindow_out (s : State) (x1 y1 x2 y2 : Word) :
    (placeWindow x1 y1 x2 y2 s).out = s.out := rfl
@[simp] theorem placeWindow_rx (s : State) (x1 y1 x2 y2 : Word) : (placeWindow x1 y1 x2 y2 s).rx = s.rx := rfl
@[simp] theorem placeWindow_ry (s : State) (x1 y1 x2 y2 : Word) : (placeWindow x1 y1 x2 y2 s).ry = s.ry := rfl
@[simp] theorem placeWindow_rt0 (s : State) (x1 y1 x2 y2 : Word) :
    (placeWindow x1 y1 x2 y2 s).rt0 = s.rt0 := rfl
@[simp] theorem placeWindow_rt1 (s : State) (x1 y1 x2 y2 : Word) :
    (placeWindow x1 y1 x2 y2 s).rt1 = s.rt1 := rfl
@[simp] theorem placeWindow_rt2 (s : State) (x1 y1 x2 y2 : Word) :
    (placeWindow x1 y1 x2 y2 s).rt2 = s.rt2 := rfl
@[simp] theorem placeWindow_touchCal (s : State) (x1 y1 x2 y2 : Word) :
    (placeWindow x1 y1 x2 y2 s).touchCal = s.touchCal := rfl
@[simp] theorem placeWindow_sampling (s : State) (x1 y1 x2 y2 : Word) :
    (placeWindow x1 y1 x2 y2 s).sampling = s.sampling := rfl
@[simp] theorem placeWindow_adcIn (s : State) (x1 y1 x2 y2 : Word) :
    (placeWindow x1 y1 x2 y2 s).adcIn = s.adcIn := rfl
@[simp] theorem placeWindow_freeIndex (s : State) (x1 y1 x2 y2 : Word) :
    (placeWindow x1 y1 x2 y2 s).freeIndex = s.freeIndex := rfl
@[simp] theorem placeWindow_trace (s : State) (x1 y1 x2 y2 : Word) :
    (placeWindow x1 y1 x2 y2 s).trace = s.trace := rfl
@[simp] theorem placeWindow_touchTrace (s : State) (x1 y1 x2 y2 : Word) :
    (placeWindow x1 y1 x2 y2 s).touchTrace = s.touchTrace := rfl
@[simp] theorem placeWindow_responses (s : State) (x1 y1 x2 y2 : Word) :
    (placeWindow x1 y1 x2 y2 s).responses = s.responses := rfl

/-! Fields after `sortCorners`. -/

@[simp] theorem sortCorners_cfg (s : State) (x1 y1 x2 y2 : Word) :
    (sortCorners x1 y1 x2 y2 s).cfg = s.cfg := rfl
@[simp] theorem sortCorners_cmds (s : State) (x1 y1 x2 y2 : Word) :
    (sortCorners x1 y1 x2 y2 s).cmds = s.cmds := rfl
@[simp] theorem sortCorners_busy (s : State) (x1 y1 x2 y2 : Word) :
    (sortCorners x1 y1 x2 y2 s).busy = s.busy := rfl
@[simp] theorem sortCorners_life (s : State) (x1 y1 x2 y2 : Word) :
    (sortCorners x1 y1 x2 y2 s).life = s.life := rfl
@[simp] theorem sortCorners_orient (s : State) (x1 y1 x2 y2 : Word) :
    (sortCorners x1 y1 x2 y2 s).orient = s.orient := rfl
@[simp] theorem sortCorners_f (s : State) (x1 y1 x2 y2 : Word) : (sortCorners x1 y1 x2 y2 s).f = s.f := rfl
@[simp] theorem sortCorners_x0 (s : State) (x1 y1 x2 y2 : Word) :
    (sortCorners x1 y1 x2 y2 s).x0 = minWord x1 x2 := rfl
@[simp] theorem sortCorners_x1 (s : State) (x1 y1 x2 y2 : Word) :
    (sortCorners x1 y1 x2 y2 s).x1 = minWord y1 y2 := rfl
@[simp] theorem sortCorners_x2 (s : State) (x1 y1 x2 y2 : Word) :
    (sortCorners x1 y1 x2 y2 s).x2 = maxWord x1 x2 := rfl
@[simp] theorem sortCorners_x3 (s : State) (x1 y1 x2 y2 : Word) :
    (sortCorners x1 y1 x2 y2 s).x3 = maxWord y1 y2 := rfl
@[simp] theorem sortCorners_x4 (s : State) (x1 y1 x2 y2 : Word) : (sortCorners x1 y1 x2 y2 s).x4 = s.x4 := rfl
@[simp] theorem sortCorners_px1 (s : State) (x1 y1 x2 y2 : Word) :
    (sortCorners x1 y1 x2 y2 s).px1 = s.px1 := rfl
@[simp] theorem sortCorners_py1 (s : State) (x1 y1 x2 y2 : Word) :
    (sortCorners x1 y1 x2 y2 s).py1 = s.py1 := rfl
@[simp] theorem sortCorners_px2 (s : State) (x1 y1 x2 y2 : Word) :
    (sortCorners x1 y1 x2 y2 s).px2 = s.px2 := rfl
@[simp] theorem sortCorners_py2 (s : State) (x1 y1 x2 y2 : Word) :
    (sortCorners x1 y1 x2 y2 s).py2 = s.py2 := rfl
@[simp] theorem sortCorners_hs (s : State) (x1 y1 x2 y2 : Word) : (sortCorners x1 y1 x2 y2 s).hs = s.hs := rfl
@[simp] theorem sortCorners_he (s : State) (x1 y1 x2 y2 : Word) : (sortCorners x1 y1 x2 y2 s).he = s.he := rfl
@[simp] theorem sortCorners_vs (s : State) (x1 y1 x2 y2 : Word) : (sortCorners x1 y1 x2 y2 s).vs = s.vs := rfl
@[simp] theorem sortCorners_ve (s : State) (x1 y1 x2 y2 : Word) : (sortCorners x1 y1 x2 y2 s).ve = s.ve := rfl
@[simp] theorem sortCorners_count (s : State) (x1 y1 x2 y2 : Word) :
    (sortCorners x1 y1 x2 y2 s).count = s.count := rfl
@[simp] theorem sortCorners_seqPc (s : State) (x1 y1 x2 y2 : Word) :
    (sortCorners x1 y1 x2 y2 s).seqPc = s.seqPc := rfl
@[simp] theorem sortCorners_pinsConfigured (s : State) (x1 y1 x2 y2 : Word) :
    (sortCorners x1 y1 x2 y2 s).pinsConfigured = s.pinsConfigured := rfl
@[simp] theorem sortCorners_pins (s : State) (x1 y1 x2 y2 : Word) :
    (sortCorners x1 y1 x2 y2 s).pins = s.pins := rfl
@[simp] theorem sortCorners_out (s : State) (x1 y1 x2 y2 : Word) :
    (sortCorners x1 y1 x2 y2 s).out = s.out := rfl
@[simp] theorem sortCorners_rx (s : State) (x1 y1 x2 y2 : Word) : (sortCorners x1 y1 x2 y2 s).rx = s.rx := rfl
@[simp] theorem sortCorners_ry (s : State) (x1 y1 x2 y2 : Word) : (sortCorners x1 y1 x2 y2 s).ry = s.ry := rfl
@[simp] theorem sortCorners_rt0 (s : State) (x1 y1 x2 y2 : Word) :
    (sortCorners x1 y1 x2 y2 s).rt0 = s.rt0 := rfl
@[simp] theorem sortCorners_rt1 (s : State) (x1 y1 x2 y2 : Word) :
    (sortCorners x1 y1 x2 y2 s).rt1 = s.rt1 := rfl
@[simp] theorem sortCorners_rt2 (s : State) (x1 y1 x2 y2 : Word) :
    (sortCorners x1 y1 x2 y2 s).rt2 = s.rt2 := rfl
@[simp] theorem sortCorners_touchCal (s : State) (x1 y1 x2 y2 : Word) :
    (sortCorners x1 y1 x2 y2 s).touchCal = s.touchCal := rfl
@[simp] theorem sortCorners_sampling (s : State) (x1 y1 x2 y2 : Word) :
    (sortCorners x1 y1 x2 y2 s).sampling = s.sampling := rfl
@[simp] theorem sortCorners_adcIn (s : State) (x1 y1 x2 y2 : Word) :
    (sortCorners x1 y1 x2 y2 s).adcIn = s.adcIn := rfl
@[simp] theorem sortCorners_freeIndex (s : State) (x1 y1 x2 y2 : Word) :
    (sortCorners x1 y1 x2 y2 s).freeIndex = s.freeIndex := rfl
@[simp] theorem sortCorners_trace (s : State) (x1 y1 x2 y2 : Word) :
    (sortCorners x1 y1 x2 y2 s).trace = s.trace := rfl
@[simp] theorem sortCorners_touchTrace (s : State) (x1 y1 x2 y2 : Word) :
    (sortCorners x1 y1 x2 y2 s).touchTrace = s.touchTrace := rfl
@[simp] theorem sortCorners_responses (s : State) (x1 y1 x2 y2 : Word) :
    (sortCorners x1 y1 x2 y2 s).responses = s.responses := rfl

/-! Fields after `loadClear`. -/

@[simp] theorem loadClear_cfg (s : State) : (loadClear s).cfg = s.cfg := rfl
@[simp] theorem loadClear_cmds (s : State) : (loadClear s).cmds = s.cmds := rfl
@[simp] theorem loadClear_busy (s : State) : (loadClear s).busy = s.busy := rfl
@[simp] theorem loadClear_life (s : State) : (loadClear s).life = s.life := rfl
@[simp] theorem loadClear_orient (s : State) : (loadClear s).orient = s.orient := rfl
@[simp] theorem loadClear_f (s : State) : (loadClear s).f = s.f := rfl
@[simp] theorem loadClear_x0 (s : State) : (loadClear s).x0 = 0 := rfl
@[simp] theorem loadClear_x1 (s : State) : (loadClear s).x1 = 0 := rfl
@[simp] theorem loadClear_x2 (s : State) : (loadClear s).x2 = lastX s.cfg 1 := rfl
@[simp] theorem loadClear_x3 (s : State) : (loadClear s).x3 = lastY s.cfg 1 := rfl
@[simp] theorem loadClear_x4 (s : State) : (loadClear s).x4 = s.cfg.clearColor := rfl
@[simp] theorem loadClear_px1 (s : State) : (loadClear s).px1 = s.px1 := rfl
@[simp] theorem loadClear_py1 (s : State) : (loadClear s).py1 = s.py1 := rfl
@[simp] theorem loadClear_px2 (s : State) : (loadClear s).px2 = s.px2 := rfl
@[simp] theorem loadClear_py2 (s : State) : (loadClear s).py2 = s.py2 := rfl
@[simp] theorem loadClear_hs (s : State) : (loadClear s).hs = s.hs := rfl
@[simp] theorem loadClear_he (s : State) : (loadClear s).he = s.he := rfl
@[simp] theorem loadClear_vs (s : State) : (loadClear s).vs = s.vs := rfl
@[simp] theorem loadClear_ve (s : State) : (loadClear s).ve = s.ve := rfl
@[simp] theorem loadClear_count (s : State) : (loadClear s).count = s.count := rfl
@[simp] theorem loadClear_seqPc (s : State) : (loadClear s).seqPc = s.seqPc := rfl
@[simp] theorem loadClear_pinsConfigured (s : State) : (loadClear s).pinsConfigured = s.pinsConfigured := rfl
@[simp] theorem loadClear_pins (s : State) : (loadClear s).pins = s.pins := rfl
@[simp] theorem loadClear_out (s : State) : (loadClear s).out = s.out := rfl
@[simp] theorem loadClear_rx (s : State) : (loadClear s).rx = s.rx := rfl
@[simp] theorem loadClear_ry (s : State) : (loadClear s).ry = s.ry := rfl
@[simp] theorem loadClear_rt0 (s : State) : (loadClear s).rt0 = s.rt0 := rfl
@[simp] theorem loadClear_rt1 (s : State) : (loadClear s).rt1 = s.rt1 := rfl
@[simp] theorem loadClear_rt2 (s : State) : (loadClear s).rt2 = s.rt2 := rfl
@[simp] theorem loadClear_touchCal (s : State) : (loadClear s).touchCal = s.touchCal := rfl
@[simp] theorem loadClear_sampling (s : State) : (loadClear s).sampling = s.sampling := rfl
@[simp] theorem loadClear_adcIn (s : State) : (loadClear s).adcIn = s.adcIn := rfl
@[simp] theorem loadClear_freeIndex (s : State) : (loadClear s).freeIndex = s.freeIndex := rfl
@[simp] theorem loadClear_trace (s : State) : (loadClear s).trace = s.trace := rfl
@[simp] theorem loadClear_touchTrace (s : State) : (loadClear s).touchTrace = s.touchTrace := rfl
@[simp] theorem loadClear_responses (s : State) : (loadClear s).responses = s.responses := rfl

/-! The word that `withFetchWord` places. -/

@[simp] theorem State.withFetchWord_cmds (s : State) (n w : Nat) :
    (s.withFetchWord n w).cmds = tableWord n w :: s.cmds := rfl
@[simp] theorem State.withFetchWord_busy (s : State) (n w : Nat) : (s.withFetchWord n w).busy = false := rfl
@[simp] theorem State.withFetchWord_accept (s : State) (n w : Nat) :
    (s.withFetchWord n w).accept (tableWord n w) s.cmds = s.accept (tableWord n w) s.cmds := rfl

end Sys2Proof.Machine
end

