-- ==== Sys2Proof/Laws/Ops.lean ====
section
/-! SUPPORT. What the shared operations can do, said once: performing events, the acceptance checks, the
procedures of the geometry layer and of start-up. -/

namespace Sys2Proof.Machine

/-! Performing events. -/

@[simp] theorem perform_nil (s : State) : s.perform [] = s := by
  cases s; simp [State.perform]

theorem perform_append (s : State) (a b : List Event) : s.perform (a ++ b) = (s.perform a).perform b := by
  simp [State.perform, List.foldl_append]

@[simp] theorem configured_foldl_of_no_cfg (evs : List Event) (h : Event.cfg ∉ evs) (b : Bool) :
    evs.foldl configuredAfter b = b := by
  induction evs generalizing b with
  | nil => rfl
  | cons e es ih =>
    simp only [List.mem_cons, not_or] at h
    rw [List.foldl_cons, ih h.2]
    cases e with
    | cfg => exact absurd rfl h.1
    | sig => rfl
    | data => rfl
    | wait => rfl

theorem configured_foldl_true (evs : List Event) : evs.foldl configuredAfter true = true := by
  induction evs with
  | nil => rfl
  | cons e es ih => cases e <;> simpa [configuredAfter] using ih

/-! The acceptance checks (60_exceptions R222, R225). -/

theorem whenReady_next {s t : State} {r : Result} :
    whenReady s r = .next t ↔ s.life = .ready ∧ r = .next t := by
  unfold whenReady; split <;> simp [*]

theorem whenInRange_next {ok : Bool} {t : State} {r : Result} :
    whenInRange ok r = .next t ↔ ok = true ∧ r = .next t := by
  unfold whenInRange; split <;> simp [*]

@[simp] theorem whenReady_of_ready {s : State} (h : s.life = .ready) (r : Result) : whenReady s r = r := by
  simp [whenReady, h]

@[simp] theorem whenInRange_true (r : Result) : whenInRange true r = r := rfl

@[simp] theorem whenInRange_false (r : Result) : whenInRange false r = .refused .coordinateOutOfRange := rfl

/-! No procedure but `Configure()` holds a `CFG`. -/

@[simp] theorem cfg_notMem_strobe (b : Byte) : Event.cfg ∉ strobe b := by simp [strobe]

@[simp] theorem cfg_notMem_cmdBytes (c : Cfg) (cmd : Word) : Event.cfg ∉ cmdBytes c cmd := by
  unfold cmdBytes; cases c.cmdXfers <;> simp

@[simp] theorem cfg_notMem_dataBytes (hi lo : Byte) : Event.cfg ∉ dataBytes hi lo := by simp [dataBytes]

@[simp] theorem cfg_notMem_commandWrite (c : Cfg) (cmd : Word) : Event.cfg ∉ commandWrite c cmd := by
  simp [commandWrite]

@[simp] theorem cfg_notMem_dataWrite (c : Cfg) (hi lo : Byte) : Event.cfg ∉ dataWrite c hi lo := by
  simp [dataWrite]

@[simp] theorem cfg_notMem_commandDataWrite (c : Cfg) (cmd : Word) (hi lo : Byte) :
    Event.cfg ∉ commandDataWrite c cmd hi lo := by simp [commandDataWrite]

@[simp] theorem cfg_notMem_regWrite (c : Cfg) (reg : Byte) (val : Word) : Event.cfg ∉ regWrite c reg val := by
  simp [regWrite]

@[simp] theorem cfg_notMem_windowEvents (c : Cfg) (hs he vs ve : Word) :
    Event.cfg ∉ windowEvents c hs he vs ve := by
  unfold windowEvents; split <;> simp

@[simp] theorem cfg_notMem_pointEvents (c : Cfg) (px py color : Word) :
    Event.cfg ∉ pointEvents c px py color := by simp [pointEvents]

@[simp] theorem cfg_notMem_rectEvents (c : Cfg) (o : BitVec 2) (x1 y1 x2 y2 : Word) :
    Event.cfg ∉ rectEvents c o x1 y1 x2 y2 := by simp [rectEvents]

@[simp] theorem cfg_notMem_pixelEvents (c : Cfg) (color : Word) : Event.cfg ∉ pixelEvents c color := by
  unfold pixelEvents; split <;> simp

@[simp] theorem cfg_notMem_fillLoop (px : List Event) (h : Event.cfg ∉ px) (n : Nat) :
    Event.cfg ∉ fillLoop px n := by
  induction n with
  | zero => simp [fillLoop]
  | succ n ih => simp [fillLoop, h, ih]

@[simp] theorem cfg_notMem_fillEvents (c : Cfg) (color : Word) (n : Nat) :
    Event.cfg ∉ fillEvents c color n := by
  unfold fillEvents; split <;> simp

@[simp] theorem cfg_notMem_rectFillEvents (c : Cfg) (o : BitVec 2) (x1 y1 x2 y2 color : Word) :
    Event.cfg ∉ rectFillEvents c o x1 y1 x2 y2 color := by simp [rectFillEvents]

@[simp] theorem cfg_notMem_initStepEvents (c : Cfg) (st : InitStep) : Event.cfg ∉ initStepEvents c st := by
  cases st <;> simp [initStepEvents]

@[simp] theorem cfg_notMem_initEvents (c : Cfg) : Event.cfg ∉ initEvents c := by simp [initEvents]

@[simp] theorem cfg_notMem_resetPulse (c : Cfg) : Event.cfg ∉ resetPulse c := by simp [resetPulse]

/-! The fill loop. -/

theorem fillLoop_eq (px : List Event) (n : Nat) : fillLoop px n = (List.replicate n px).flatten := by
  induction n with
  | zero => rfl
  | succ n ih => simp [fillLoop, ih, List.replicate_succ]

@[simp] theorem fillLoop_length (px : List Event) (n : Nat) : (fillLoop px n).length = n * px.length := by
  simp [fillLoop_eq]

/-! The procedures: what each makes of a state. -/

/-- Everything `SetWindow` can do (43_geometry R176). -/
theorem setWindow_eq (x1 y1 x2 y2 : Word) (s : State) :
    setWindow x1 y1 x2 y2 s =
      (placeWindow x1 y1 x2 y2 s).perform (rectEvents s.cfg s.orient x1 y1 x2 y2) := rfl

/-- Everything the body of `FASTFILL` can do (43_geometry R182). -/
theorem fillBody_eq (x1 y1 x2 y2 color : Word) (s : State) :
    fillBody x1 y1 x2 y2 color s =
      { (placeWindow (minWord x1 x2) (minWord y1 y2) (maxWord x1 x2) (maxWord y1 y2)
          (sortCorners x1 y1 x2 y2 s)).perform (rectFillEvents s.cfg s.orient x1 y1 x2 y2 color) with
        count := 0 } := by
  unfold fillBody rectFillEvents
  simp only [setWindow_eq, perform_append]
  rfl

/-- Everything the start-up loop can do (42_register_interface R154). -/
theorem initLoop_eq (l : List InitStep) (s : State) :
    initLoop l s = { s.perform (l.flatMap (initStepEvents s.cfg)) with seqPc := s.seqPc + l.length } := by
  induction l generalizing s with
  | nil => cases s; simp [initLoop, State.perform]
  | cons st rest ih =>
    rw [initLoop, ih, List.flatMap_cons, perform_append]
    simp only [State.perform, List.length_cons]
    congr 2
    omega

/-- Everything `InitSequence()` can do (42_register_interface R154). -/
theorem initSequence_eq (s : State) :
    initSequence s = { s.perform (initEvents s.cfg) with seqPc := s.cfg.initSeq.length } := by
  simp [initSequence, initLoop_eq, initEvents, State.perform]

/-- Everything the panel reset of `BEGIN` can do (44_lifecycle R202). -/
theorem panelReset_eq (s : State) :
    panelReset s =
      s.perform (match s.cfg.resetMode with | .pulsed => resetPulse s.cfg | .hardwired => []) := by
  unfold panelReset; split <;> simp [*]

/-- Everything `BEGIN` can do (44_lifecycle R200). -/
theorem beginBody_eq (s : State) :
    beginBody s =
      { (placeWindow 0 0 (lastX s.cfg 1) (lastY s.cfg 1) { s with orient := 1 }).perform
          (beginEvents s.cfg) with
        life := .ready
        pinsConfigured := true
        seqPc := s.cfg.initSeq.length
        count := 0
        x0 := 0
        x1 := 0
        x2 := lastX s.cfg 1
        x3 := lastY s.cfg 1
        x4 := s.cfg.clearColor
        touchCal := if s.cfg.hasTouch then Config.touchCalibration else s.touchCal } := by
  have hmin : ∀ v : Word, minWord 0 v = 0 := fun v => by simp [minWord]
  have hmax : ∀ v : Word, maxWord 0 v = v := fun v => by simp [maxWord]
  simp only [beginBody, calibrate, clearScreen, fillBody_eq, initSequence_eq, panelReset_eq,
    State.configure, beginEvents]
  split <;> simp_all [State.perform, placeWindow, sortCorners, loadClear, List.foldl_append, configuredAfter]

end Sys2Proof.Machine
end

