-- ==== Sys2Proof/Laws/Exec.lean ====
section
/-! SUPPORT. What a meaning and a step can do, said once: the inversion lemmas that later proofs cite
instead of unfolding `exec` and `step`. -/

namespace Sys2Proof.Machine

/-! The sampler. -/

@[simp] theorem draw_cfg (s : State) : (draw s).2.cfg = s.cfg := by simp only [draw]

/-- A draw changes the converter's inputs and the free index, nothing else (60_exceptions R233). -/
theorem draw_state (s : State) :
    (draw s).2 = { s with adcIn := s.adcIn.tail, freeIndex := s.freeIndex + 1 } := by simp only [draw]

/-- The three phases change the converter's inputs, the free index and the record of what was done. -/
theorem measure_state (s : State) :
    (measure s).2 =
      { s with
        adcIn := s.adcIn.tail.tail.tail.tail.tail
        freeIndex := s.freeIndex + 5
        touchTrace := (measure s).2.touchTrace } := by
  simp only [measure, draw_state, State.logTouch]

/-- What is recorded is the record of the triple that was measured (60_exceptions R232). -/
theorem measure_touchTrace (s : State) :
    (measure s).2.touchTrace = s.touchTrace ++ tripleEvents (phaseChoice s.freeIndex) (measure s).1 := by
  simp only [measure, draw_state, State.logTouch]

/-- What a pass of the sampler leaves alone: everything but its own registers, records and inputs. -/
theorem touchPass_frame (n : Nat) (s : State) :
    touchPass n s =
      { s with
        rt0 := (touchPass n s).rt0
        rt1 := (touchPass n s).rt1
        rt2 := (touchPass n s).rt2
        sampling := (touchPass n s).sampling
        adcIn := (touchPass n s).adcIn
        freeIndex := (touchPass n s).freeIndex
        touchTrace := (touchPass n s).touchTrace
        responses := (touchPass n s).responses } := by
  unfold touchPass
  split
  · simp only [State.respond]
  · dsimp only
    split
    · rw [measure_state]; simp only [touchReturn, State.respond]
    · rw [measure_state]

/-- A pass ends the command or counts one more triple thrown away (60_exceptions R232, R235). -/
theorem touchPass_sampling (n : Nat) (s : State) :
    (touchPass n s).sampling = none ∨ (touchPass n s).sampling = some (n + 1) := by
  unfold touchPass
  split
  · exact .inl rfl
  · dsimp only; split
    · exact .inl rfl
    · exact .inr rfl

/-! The meanings. -/

/-- The life cycle after an accepted command (44_lifecycle R201). -/
def lifeAfter (i : Instr) (l : Life) : Life := if i = .begin then .ready else l

/-- What every accepted command does to the pins, the outputs, the trace and the life cycle, and what none
of them touches. -/
structure Ran (i : Instr) (s t : State) : Prop where
  cfg : t.cfg = s.cfg
  cmds : t.cmds = s.cmds
  busy : t.busy = s.busy
  f : t.f = s.f
  life : t.life = lifeAfter i s.life
  trace : t.trace = s.trace ++ commandEvents s.cfg s.orient i
  pins : t.pins = (commandEvents s.cfg s.orient i).foldl (pinsAfter s.cfg) s.pins
  out : t.out = (commandEvents s.cfg s.orient i).foldl (outAfter s.cfg) s.out
  configured : t.pinsConfigured = (commandEvents s.cfg s.orient i).foldl configuredAfter s.pinsConfigured

theorem ran_perform {i : Instr} {s : State} {evs : List Event} (hi : i ≠ .begin)
    (h : evs = commandEvents s.cfg s.orient i) : Ran i s (s.perform evs) := by
  subst h
  exact ⟨rfl, rfl, rfl, rfl, by simp [lifeAfter, hi], rfl, rfl, rfl, rfl⟩

/-- Once for all commands: an accepted command puts `commandEvents` on the pins and nothing else. -/
theorem exec_ran {i : Instr} {s t : State} (h : exec i s = .next t) : Ran i s t := by
  cases i with
  | wrcmd cmd =>
    obtain ⟨-, h⟩ := whenReady_next.1 h
    cases h; exact ran_perform (by simp) rfl
  | wrdata val =>
    obtain ⟨-, h⟩ := whenReady_next.1 h
    cases h; exact ran_perform (by simp) rfl
  | wrcmddata cmd hi lo =>
    obtain ⟨-, h⟩ := whenReady_next.1 h
    cases h; exact ran_perform (by simp) rfl
  | wrdata88 hi lo =>
    obtain ⟨-, h⟩ := whenReady_next.1 h
    cases h; exact ran_perform (by simp) rfl
  | wrreg reg val =>
    obtain ⟨-, h⟩ := whenReady_next.1 h
    cases h; exact ran_perform (by simp) rfl
  | setorient o =>
    obtain ⟨-, h⟩ := whenReady_next.1 h
    cases h; exact ⟨rfl, rfl, rfl, rfl, rfl, by simp [commandEvents], rfl, rfl, rfl⟩
  | orientxy x y =>
    obtain ⟨-, h⟩ := whenReady_next.1 h
    obtain ⟨-, h⟩ := whenInRange_next.1 h
    cases h; exact ⟨rfl, rfl, rfl, rfl, rfl, by simp [commandEvents, orientResponse], rfl, rfl, rfl⟩
  | setwindow x1 y1 x2 y2 =>
    obtain ⟨-, h⟩ := whenReady_next.1 h
    obtain ⟨-, h⟩ := whenInRange_next.1 h
    cases h; exact ⟨rfl, rfl, rfl, rfl, rfl, rfl, rfl, rfl, rfl⟩
  | closewindow =>
    obtain ⟨-, h⟩ := whenReady_next.1 h
    cases h; exact ⟨rfl, rfl, rfl, rfl, rfl, rfl, rfl, rfl, rfl⟩
  | setpoint x y color =>
    obtain ⟨-, h⟩ := whenReady_next.1 h
    obtain ⟨-, h⟩ := whenInRange_next.1 h
    cases h; exact ⟨rfl, rfl, rfl, rfl, rfl, rfl, rfl, rfl, rfl⟩
  | fastfill x1 y1 x2 y2 color =>
    obtain ⟨-, h⟩ := whenReady_next.1 h
    obtain ⟨-, h⟩ := whenInRange_next.1 h
    cases h; rw [fillBody_eq]; exact ⟨rfl, rfl, rfl, rfl, rfl, rfl, rfl, rfl, rfl⟩
  | begin =>
    simp only [exec, execBegin] at h
    split at h
    · cases h
      rw [beginBody_eq]
      refine ⟨rfl, rfl, rfl, rfl, rfl, rfl, rfl, rfl, ?_⟩
      simp [commandEvents, beginEvents, configuredAfter, configured_foldl_true]
    · cases h
  | setbacklight flag =>
    obtain ⟨-, h⟩ := whenReady_next.1 h
    cases h; exact ran_perform (by simp) rfl
  | setintensity level =>
    obtain ⟨-, h⟩ := whenReady_next.1 h
    cases h; exact ⟨rfl, rfl, rfl, rfl, rfl, by simp [commandEvents], rfl, rfl, rfl⟩
  | whoami =>
    simp only [exec, execWhoami] at h
    cases h; exact ⟨rfl, rfl, rfl, rfl, rfl, by simp [commandEvents], rfl, rfl, rfl⟩
  | readtouch =>
    obtain ⟨-, h⟩ := whenReady_next.1 h
    split at h
    · cases h
      rw [touchPass_frame]
      exact ⟨rfl, rfl, rfl, rfl, rfl, by simp [commandEvents], rfl, rfl, rfl⟩
    · cases h

/-! The step. -/

/-- A step of a busy block changes only what a pass of the sampler changes, and `BUSY`. -/
theorem stepBusy_frame (s : State) :
    stepBusy s =
      { s with
        busy := (stepBusy s).busy
        rt0 := (stepBusy s).rt0
        rt1 := (stepBusy s).rt1
        rt2 := (stepBusy s).rt2
        sampling := (stepBusy s).sampling
        adcIn := (stepBusy s).adcIn
        freeIndex := (stepBusy s).freeIndex
        touchTrace := (stepBusy s).touchTrace
        responses := (stepBusy s).responses } := by
  unfold stepBusy
  split
  · rw [touchPass_frame]; rfl
  · rfl

theorem stepBusy_cfg (s : State) : (stepBusy s).cfg = s.cfg := by rw [stepBusy_frame]

@[simp] theorem build_toBlock (c : Cfg) (inp : Inputs) (b : Block) : (State.build c inp b).toBlock = b := rfl
@[simp] theorem build_toInputs (c : Cfg) (inp : Inputs) (b : Block) :
    (State.build c inp b).toInputs = inp := rfl
@[simp] theorem build_cfg (c : Cfg) (inp : Inputs) (b : Block) : (State.build c inp b).cfg = c := rfl
@[simp] theorem build_self (s : State) : State.build s.cfg s.toInputs s.toBlock = s := rfl

/-- A machine is its parts once more with the configuration it had. -/
theorem build_of_cfg_eq {s : State} {c : Cfg} (h : s.cfg = c) : State.build c s.toInputs s.toBlock = s := by
  subst h; rfl

/-- A step is the step function of the spec on the block and its inputs, with the configuration unchanged
(00_scope R6, 10_state R20). -/
theorem step_next {s t : State} (h : step s = .next t) :
    t.cfg = s.cfg ∧ stepBlock s.cfg s.toInputs s.toBlock = .next (t.toBlock, t.toInputs) := by
  unfold step at h
  split at h <;> cases h
  exact ⟨rfl, ‹_›⟩

/-- Everything a step can do. -/
theorem step_cases {s t : State} (h : step s = .next t) :
    (s.busy = true ∧ t = stepBusy s) ∨ (s.busy = false ∧ s.cmds = [] ∧ t = s) ∨
      ∃ w rest i u, s.busy = false ∧ s.cmds = w :: rest ∧ decode w = .ok i ∧
        exec i (s.accept w rest) = .next u ∧ t = u.complete := by
  obtain ⟨hc, h⟩ := step_next h
  have ht : ∀ u : State, u.cfg = s.cfg → (u.toBlock, u.toInputs) = (t.toBlock, t.toInputs) → t = u := by
    intro u hu he
    rw [← build_of_cfg_eq hc, ← build_of_cfg_eq hu, (Prod.mk.inj he).1, (Prod.mk.inj he).2]
  simp only [stepBlock, build_self] at h
  split at h
  · rename_i hb
    injection h with h
    exact .inl ⟨hb, ht _ (stepBusy_cfg s) h⟩
  · rename_i hb
    have hb : s.busy = false := by simpa using hb
    split at h
    · rename_i he
      injection h with h
      exact .inr (.inl ⟨hb, he, ht s rfl h⟩)
    · rename_i w rest he
      split at h
      · rename_i i hd
        unfold runCommand at h
        split at h
        · rename_i u hu
          injection h with h
          exact .inr (.inr ⟨w, rest, i, u, hb, he, hd, hu, ht _ (exec_ran hu).cfg h⟩)
        · cases h
        · cases h
      · cases h

/-- A command presented to a block that is not busy: the step answers what its meaning answers. -/
theorem step_command {s : State} {w : CmdWord} {rest : List CmdWord} {i : Instr} (hb : s.busy = false)
    (hc : s.cmds = w :: rest) (hd : decode w = .ok i) :
    (∀ u, exec i (s.accept w rest) = .next u → step s = .next u.complete) ∧
      ∀ r, exec i (s.accept w rest) = .refused r → step s = .refused r := by
  have h : stepBlock s.cfg s.toInputs s.toBlock = runCommand i (s.accept w rest) := by
    simp only [stepBlock, hb, hc, hd, build_self]; rfl
  refine ⟨fun u hu => ?_, fun r hr => ?_⟩
  · simp only [step, h, runCommand, hu]
    exact congrArg _ (build_of_cfg_eq (exec_ran hu).cfg)
  · simp only [step, h, runCommand, hr]

/-- A busy block does one more pass. -/
theorem step_busy {s : State} (hb : s.busy = true) : step s = .next (stepBusy s) := by
  simp only [step, stepBlock, hb, if_true, build_self]
  exact congrArg _ (build_of_cfg_eq (stepBusy_cfg s))

end Sys2Proof.Machine
end

