-- ==== Sys2Proof/Laws/Geometry.lean ====
section
/-! SUPPORT. The coordinate transform and the sorts (43_geometry R171 to R175). -/

namespace Sys2Proof.Machine

/-- The four orientations (10_state R28). -/
theorem orientation_cases (o : BitVec 2) : o = 0 ∨ o = 1 ∨ o = 2 ∨ o = 3 := by
  revert o; decide

@[simp] theorem transform_zero (c : Cfg) (x y : Nat) : transform c 0#2 x y = (y, c.h - 1 - x) := rfl

@[simp] theorem transform_one (c : Cfg) (x y : Nat) : transform c 1#2 x y = (c.w - 1 - x, c.h - 1 - y) := rfl

@[simp] theorem transform_two (c : Cfg) (x y : Nat) : transform c 2#2 x y = (c.w - 1 - y, x) := rfl

@[simp] theorem transform_three (c : Cfg) (x y : Nat) : transform c 3#2 x y = (x, y) := rfl

@[simp] theorem sizeX_zero (c : Cfg) : sizeX c 0#2 = c.h := rfl

@[simp] theorem sizeX_one (c : Cfg) : sizeX c 1#2 = c.w := rfl

@[simp] theorem sizeX_two (c : Cfg) : sizeX c 2#2 = c.h := rfl

@[simp] theorem sizeX_three (c : Cfg) : sizeX c 3#2 = c.w := rfl

@[simp] theorem sizeY_zero (c : Cfg) : sizeY c 0#2 = c.w := rfl

@[simp] theorem sizeY_one (c : Cfg) : sizeY c 1#2 = c.h := rfl

@[simp] theorem sizeY_two (c : Cfg) : sizeY c 2#2 = c.w := rfl

@[simp] theorem sizeY_three (c : Cfg) : sizeY c 3#2 = c.h := rfl

theorem inRange_iff (c : Cfg) (o : BitVec 2) (x y : Word) :
    inRange c o x y = true ↔ x.toNat < sizeX c o ∧ y.toNat < sizeY c o := by
  simp [inRange]

theorem sizeOk_iff (c : Cfg) :
    c.sizeOk = true ↔
      0 < c.w ∧ 0 < c.h ∧ c.w ≤ 65536 ∧ c.h ≤ 65536 ∧ (c.vwinPacked = false ∨ c.h ≤ 256) := by
  simp [Cfg.sizeOk, and_assoc]

/-- The decided and the default configurations have a size the registers hold. -/
theorem valid_sizeOk {c : Cfg} (h : c.valid = true) : c.sizeOk = true := by
  simp only [Cfg.valid, Bool.and_eq_true] at h; tauto

theorem valid_strobeOk {c : Cfg} (h : c.valid = true) : c.wrIdle = true := by
  simp only [Cfg.valid, Cfg.strobeOk, Bool.and_eq_true] at h; tauto

theorem valid_pinsOk {c : Cfg} (h : c.valid = true) : c.pinsOk = true := by
  simp only [Cfg.valid, Bool.and_eq_true] at h; tauto

theorem valid_regsOk {c : Cfg} (h : c.valid = true) : c.regsOk = true := by
  simp only [Cfg.valid, Bool.and_eq_true] at h; tauto

theorem valid_initSeqOk {c : Cfg} (h : c.valid = true) : c.initSeqOk = true := by
  simp only [Cfg.valid, Bool.and_eq_true] at h; tauto

theorem valid_delaysOk {c : Cfg} (h : c.valid = true) : c.delaysOk = true := by
  simp only [Cfg.valid, Bool.and_eq_true] at h; tauto

/-- In range, the transform stays on the panel (43_geometry R174). -/
theorem transform_lt (c : Cfg) (o : BitVec 2) (x y : Nat) (hx : x < sizeX c o) (hy : y < sizeY c o) :
    (transform c o x y).1 < c.w ∧ (transform c o x y).2 < c.h := by
  rcases orientation_cases o with rfl | rfl | rfl | rfl <;> simp_all <;> omega

/-- In range, the registers hold the transformed point exactly (43_geometry R174: "no arithmetic wraps"). -/
theorem phys_toNat (c : Cfg) (hc : c.sizeOk = true) (o : BitVec 2) (x y : Word)
    (h : inRange c o x y = true) :
    (physX c o x y).toNat = (transform c o x.toNat y.toNat).1 ∧
      (physY c o x y).toNat = (transform c o x.toNat y.toNat).2 := by
  have hr := (inRange_iff c o x y).1 h
  have ht := transform_lt c o _ _ hr.1 hr.2
  have hs := (sizeOk_iff c).1 hc
  simp only [physX, physY, BitVec.toNat_ofNat]
  exact ⟨Nat.mod_eq_of_lt (by omega), Nat.mod_eq_of_lt (by omega)⟩

@[simp] theorem minWord_toNat (a b : Word) : (minWord a b).toNat = min a.toNat b.toNat := by
  unfold minWord; split <;> omega

@[simp] theorem maxWord_toNat (a b : Word) : (maxWord a b).toNat = max a.toNat b.toNat := by
  unfold maxWord; split <;> omega

/-- The corners of the full extent are in range (44_lifecycle R204, 43_geometry R178). -/
theorem fullExtent_inRange (c : Cfg) (hc : c.sizeOk = true) (o : BitVec 2) :
    inRange c o 0 0 = true ∧ inRange c o (lastX c o) (lastY c o) = true := by
  have hs := (sizeOk_iff c).1 hc
  rw [inRange_iff, inRange_iff]
  rcases orientation_cases o with rfl | rfl | rfl | rfl <;> simp [lastX, lastY] <;> omega

end Sys2Proof.Machine
end

