-- ==== Sys2Proof/Laws/Observe.lean ====
section
/-! SUPPORT. The readings of 20_memory R61, R62 and the protocol rules of 41_bus_protocol R137, for each
shared procedure from quiet wires. -/

namespace Sys2Proof.Machine

/-- The wires between commands (41_bus_protocol R136). -/
structure Quiet (c : Cfg) (p : Pins) : Prop where
  cs : p.cs = c.csInactive
  wr : p.wr = true
  rd : p.rd = c.rdIdle

@[simp] theorem csInactive_eq (c : Cfg) : c.csInactive = !c.csActive := rfl

@[simp] theorem dcData_eq (c : Cfg) : c.dcData = !c.dcCommand := rfl

@[simp] theorem rstInactive_eq (c : Cfg) : c.rstInactive = !c.rstActive := rfl

/-! The levels after each procedure. -/

@[simp] theorem pins_strobe (c : Cfg) (p : Pins) (b : Byte) :
    (strobe b).foldl (pinsAfter c) p = { p with wr := true, d := b } := rfl

theorem pins_cmdBytes (c : Cfg) (p : Pins) (cmd : Word) :
    (cmdBytes c cmd).foldl (pinsAfter c) p = { p with wr := true, d := loByte cmd } := by
  unfold cmdBytes; cases c.cmdXfers <;> rfl

theorem pins_dataBytes (c : Cfg) (p : Pins) (hi lo : Byte) :
    (dataBytes hi lo).foldl (pinsAfter c) p = { p with wr := true, d := lo } := rfl

theorem pins_commandWrite (c : Cfg) (p : Pins) (cmd : Word) :
    (commandWrite c cmd).foldl (pinsAfter c) p =
      { p with cs := c.csInactive, dc := c.dcCommand, wr := true, d := loByte cmd } := by
  simp only [commandWrite, List.foldl_append, pins_cmdBytes]; rfl

theorem pins_dataWrite (c : Cfg) (p : Pins) (hi lo : Byte) :
    (dataWrite c hi lo).foldl (pinsAfter c) p =
      { p with cs := c.csInactive, dc := c.dcData, wr := true, d := lo } := by
  simp only [dataWrite, List.foldl_append, pins_dataBytes]; rfl

theorem pins_commandDataWrite (c : Cfg) (p : Pins) (cmd : Word) (hi lo : Byte) :
    (commandDataWrite c cmd hi lo).foldl (pinsAfter c) p =
      { p with cs := c.csInactive, dc := c.dcData, wr := true, d := lo } := by
  simp only [commandDataWrite, List.foldl_append, pins_cmdBytes, pins_dataBytes]; rfl

theorem pins_regWrite (c : Cfg) (p : Pins) (reg : Byte) (val : Word) :
    (regWrite c reg val).foldl (pinsAfter c) p =
      { p with cs := c.csInactive, dc := c.dcData, wr := true, d := loByte val } :=
  pins_commandDataWrite c p _ _ _

theorem pins_windowEvents (c : Cfg) (p : Pins) (hs he vs ve : Word) :
    (windowEvents c hs he vs ve).foldl (pinsAfter c) p =
      { p with cs := c.csInactive, dc := c.dcCommand, wr := true, d := loByte (c.regmap.ramData.setWidth 16) } := by
  unfold windowEvents
  split <;> simp only [List.foldl_append, pins_regWrite, pins_commandWrite]

/-! Walking a trace in parts. -/

theorem l1From_append (c : Cfg) (a b : List Event) (w : Option Pins) :
    l1From c w (a ++ b) = l1From c w a ++ l1From c (a.foldl (wiresAfter c) w) b := by
  induction a generalizing w with
  | nil => rfl
  | cons e es ih => simp [l1From, ih]

/-- With no `CFG` among the events, the wires follow the pins. -/
theorem wires_foldl (c : Cfg) (evs : List Event) (h : Event.cfg ∉ evs) (p : Pins) :
    evs.foldl (wiresAfter c) (some p) = some (evs.foldl (pinsAfter c) p) := by
  induction evs generalizing p with
  | nil => rfl
  | cons e es ih =>
    simp only [List.mem_cons, not_or] at h
    cases e with
    | cfg => exact absurd rfl h.1
    | sig s v => exact ih h.2 _
    | data b => exact ih h.2 _
    | wait t => exact ih h.2 _

theorem l2After_append (c : Cfg) (a b : List L1Item) (st : L2State) :
    l2After c st (a ++ b) = l2After c (l2After c st a) b := by simp [l2After]

theorem l2From_append (c : Cfg) (a b : List L1Item) (st : L2State) :
    l2From c st (a ++ b) = l2From c st a ++ l2From c (l2After c st a) b := by
  induction a generalizing st with
  | nil => rfl
  | cons x xs ih => simp [l2From, l2After, ih]

/-! L1 of each procedure (30_encoding R90, R91). -/

theorem l1_strobe (c : Cfg) (p : Pins) (hcs : p.cs = c.csActive) (hrd : p.rd = c.rdIdle) (b : Byte) :
    l1From c (some p) (strobe b) = [if p.dc = c.dcCommand then .cmd b else .dat b] := by
  simp [strobe, l1From, latched, wiresAfter, pinsAfter, Pins.set, hcs, hrd]

theorem l1_cmdBytes (c : Cfg) (p : Pins) (hcs : p.cs = c.csActive) (hdc : p.dc = c.dcCommand)
    (hrd : p.rd = c.rdIdle) (cmd : Word) : l1From c (some p) (cmdBytes c cmd) = commandItems c cmd := by
  unfold cmdBytes commandItems
  cases c.cmdXfers <;>
    simp [strobe, l1From, latched, wiresAfter, pinsAfter, Pins.set, hcs, hdc, hrd]

theorem l1_dataBytes (c : Cfg) (p : Pins) (hcs : p.cs = c.csActive) (hdc : p.dc = c.dcData)
    (hrd : p.rd = c.rdIdle) (hi lo : Byte) :
    l1From c (some p) (dataBytes hi lo) = [.dat hi, .dat lo] := by
  simp [dataBytes, strobe, l1From, latched, wiresAfter, pinsAfter, Pins.set, hcs, hdc, hrd]

theorem l1_commandWrite (c : Cfg) (p : Pins) (h : Quiet c p) (cmd : Word) :
    l1From c (some p) (commandWrite c cmd) = commandItems c cmd := by
  unfold commandWrite cmdBytes commandItems
  cases c.cmdXfers <;>
    simp [strobe, l1From, latched, wiresAfter, pinsAfter, Pins.set, h.rd]

theorem l1_dataWrite (c : Cfg) (p : Pins) (h : Quiet c p) (hi lo : Byte) :
    l1From c (some p) (dataWrite c hi lo) = [.dat hi, .dat lo] := by
  simp [dataWrite, dataBytes, strobe, l1From, latched, wiresAfter, pinsAfter, Pins.set, h.rd]

theorem l1_commandDataWrite (c : Cfg) (p : Pins) (h : Quiet c p) (cmd : Word) (hi lo : Byte) :
    l1From c (some p) (commandDataWrite c cmd hi lo) = commandItems c cmd ++ [.dat hi, .dat lo] := by
  unfold commandDataWrite cmdBytes commandItems
  cases c.cmdXfers <;>
    simp [dataBytes, strobe, l1From, latched, wiresAfter, pinsAfter, Pins.set, h.rd]

theorem l1_regWrite (c : Cfg) (p : Pins) (h : Quiet c p) (reg : Byte) (val : Word) :
    l1From c (some p) (regWrite c reg val) = registerItems c reg val :=
  l1_commandDataWrite c p h _ _ _

/-! L2 of each procedure, from a reading with nothing pending. -/

/-- A reading with nothing pending and the index given selected. -/
def L2State.whole (idx : Option Word) : L2State := ⟨idx, none, none⟩

@[simp] theorem loByte_setWidth (r : Byte) : loByte (r.setWidth 16) = r := by
  unfold loByte
  apply BitVec.eq_of_toNat_eq
  have := r.isLt
  simp only [BitVec.extractLsb'_toNat, BitVec.toNat_setWidth, Nat.shiftRight_zero]
  omega

@[simp] theorem hiByte_append_loByte (v : Word) : hiByte v ++ loByte v = v := by
  unfold hiByte loByte
  apply BitVec.eq_of_toNat_eq
  have := v.isLt
  simp only [BitVec.toNat_append, BitVec.extractLsb'_toNat, Nat.shiftRight_eq_div_pow,
    Nat.shiftLeft_eq]
  rw [← Nat.shiftLeft_eq, ← Nat.shiftLeft_add_eq_or_of_lt (Nat.mod_lt _ (by norm_num)), Nat.shiftLeft_eq]
  omega

theorem selectedIndex_reg (c : Cfg) (r : Byte) : selectedIndex c (r.setWidth 16) = r.setWidth 16 := by
  unfold selectedIndex; cases c.cmdXfers <;> simp

theorem l2_command (c : Cfg) (idx : Option Word) (cmd : Word) :
    l2From c (.whole idx) (commandItems c cmd) = [.sel (selectedIndex c cmd)] ∧
      l2After c (.whole idx) (commandItems c cmd) = .whole (some (selectedIndex c cmd)) := by
  cases hx : c.cmdXfers <;>
    simp [commandItems, selectedIndex, l2From, l2After, l2Step, l2Command, badIf, L2State.whole, hx]

theorem l2_data (c : Cfg) (r : Word) (v : Word) :
    l2From c (.whole (some r)) (dataItems v) = [.write r v] ∧
      l2After c (.whole (some r)) (dataItems v) = .whole (some r) := by
  simp [dataItems, l2From, l2After, l2Step, l2Data, badIf, L2State.whole]

theorem l2_register (c : Cfg) (idx : Option Word) (reg : Byte) (val : Word) :
    l2From c (.whole idx) (registerItems c reg val) = registerWrites reg val ∧
      l2After c (.whole idx) (registerItems c reg val) = .whole (some (reg.setWidth 16)) := by
  have hc := l2_command c idx (reg.setWidth 16)
  rw [selectedIndex_reg] at hc
  have hd := l2_data c (reg.setWidth 16) val
  rw [registerItems, l2From_append, l2After_append, hc.1, hc.2, hd.1, hd.2]
  exact ⟨rfl, rfl⟩

/-! The protocol rules in parts. -/

theorem pulseFollows_append {a : List Event} (h : pulseFollows a = true) (b : List Event) :
    pulseFollows (a ++ b) = true := by
  unfold pulseFollows at h
  split at h
  · rfl
  · cases h

theorem bracketFollows_append {c : Cfg} {a : List Event} (h : bracketFollows c a = true) (b : List Event) :
    bracketFollows c (a ++ b) = true := by
  unfold bracketFollows at h
  split at h
  · exact h
  · cases h

/-- An event that keeps the rules with `a` after it keeps them with more after `a`. -/
theorem keepsProtocol_append {c : Cfg} {p : Pins} {e : Event} {a : List Event}
    (h : keepsProtocol c p e a = true) (b : List Event) : keepsProtocol c p e (a ++ b) = true := by
  unfold keepsProtocol at h ⊢
  split at h
  · cases h
  · cases h
  · simp only [Bool.and_eq_true] at h ⊢
    exact ⟨h.1, pulseFollows_append h.2 b⟩
  · exact h
  · exact h
  · simp only [Bool.and_eq_true] at h ⊢
    refine ⟨h.1, ?_⟩
    split at h
    · rw [if_pos (by assumption)]; simpa using h.2
    · rw [if_neg (by assumption)]; exact bracketFollows_append h.2 b
  · exact h
  · exact h
  · exact h

/-- Runs that keep the rules may be put one after the other (20_memory R59). -/
theorem protocolFrom_append {c : Cfg} {p : Pins} {a b : List Event} (ha : protocolFrom c p a = true)
    (hb : protocolFrom c (a.foldl (pinsAfter c) p) b = true) : protocolFrom c p (a ++ b) = true := by
  induction a generalizing p with
  | nil => exact hb
  | cons e es ih =>
    simp only [protocolFrom, Bool.and_eq_true] at ha
    simp only [List.cons_append, protocolFrom, Bool.and_eq_true]
    exact ⟨keepsProtocol_append ha.1 b, ih ha.2 hb⟩

end Sys2Proof.Machine
end

