-- ==== Sys2Proof/Laws/Panel.lean ====
section
/-! SUPPORT. What the reading of the controller can do, said once. -/

namespace Sys2Proof.Machine

@[simp] theorem Panel.pass_owed (p : Panel) (d : Nat) : (p.pass d).owed = p.owed - d := rfl
@[simp] theorem Panel.pass_awake (p : Panel) (d : Nat) : (p.pass d).awake = p.awake := rfl
@[simp] theorem Panel.pass_pixel (p : Panel) (d : Nat) (a : Nat × Nat) : (p.pass d).pixel a = p.pixel a := rfl
@[simp] theorem Panel.pass_inWindow (p : Panel) (d : Nat) (a : Nat × Nat) :
    (p.pass d).inWindow a = p.inWindow a := rfl

/-- A run over two lists is the run over the first, then the run over the second. -/
theorem Panel.run_append (c : Cfg) (k : Controller) (p : Panel) (l m : List Timed) :
    Panel.run c k p (l ++ m) = (Panel.run c k p l).bind fun q => Panel.run c k q m := by
  induction l generalizing p with
  | nil => rfl
  | cons x xs ih =>
    simp only [List.cons_append, Panel.run]
    cases p.take c k x with
    | some q => exact ih q
    | none => rfl

/-- All that storing a pixel can do (20_memory R67). -/
theorem Panel.store_eq_some {c : Cfg} {scan : Scan} {p q : Panel} {v : Word} (h : p.store c scan v = some q) :
    p.inWindow (p.ax, p.ay) = true ∧ p.ax < c.w ∧ p.ay < c.h ∧
      q = { p with
        pixels := ((p.ax, p.ay), v) :: p.pixels
        ax := (scan p.hs p.he p.vs p.ve (p.ax, p.ay)).1
        ay := (scan p.hs p.he p.vs p.ve (p.ax, p.ay)).2 } := by
  unfold Panel.store at h
  split at h
  · rename_i hc
    simp only [Bool.and_eq_true, decide_eq_true_eq] at hc
    cases h
    exact ⟨hc.1.1, hc.1.2, hc.2, rfl⟩
  · cases h

/-- The colour of a pixel after one is stored. -/
theorem Panel.pixel_store {c : Cfg} {scan : Scan} {p q : Panel} {v : Word} (h : p.store c scan v = some q)
    (a : Nat × Nat) : q.pixel a = if a = (p.ax, p.ay) then some v else p.pixel a := by
  obtain ⟨-, -, -, rfl⟩ := Panel.store_eq_some h
  simp only [Panel.pixel, List.lookup_cons]
  by_cases ha : a = (p.ax, p.ay)
  · simp [ha]
  · simp [ha, beq_eq_false_iff_ne.2 ha]

/-- An item is taken only when no time is owed (70_reset_and_hazards R261, R266). -/
theorem Panel.take_item_eq_some {c : Cfg} {k : Controller} {p q : Panel} {x : L2Item}
    (h : p.take c k (.item x) = some q) : p.owed = 0 ∧ p.takeItem c k x = some q := by
  simp only [Panel.take] at h
  split at h
  · exact ⟨‹_›, h⟩
  · cases h

end Sys2Proof.Machine
end

