-- ==== Sys2Proof/Laws/PerInstr.lean ====
section
/-! SUPPORT. Statements about every command as syntax, one lemma per constructor; the fields of an
assembled word. -/

namespace Sys2Proof

/-! The fields of a word put together from its fields (30_encoding R81). -/

@[simp] theorem make_op (op f : Byte) (a b c d e : Word) : (CmdWord.make op f a b c d e).op = op := by
  apply BitVec.eq_of_getLsbD_eq
  intro i hi
  simp only [CmdWord.op, CmdWord.make, BitVec.getLsbD_extractLsb', BitVec.getLsbD_append]
  simp [hi, show ¬ 88 + i < 16 by omega, show ¬ 88 + i - 16 < 16 by omega, show ¬ 88 + i - 16 - 16 < 16 by omega,
    show ¬ 88 + i - 16 - 16 - 16 < 16 by omega, show ¬ 88 + i - 16 - 16 - 16 - 16 < 16 by omega,
    show ¬ 88 + i - 16 - 16 - 16 - 16 - 16 < 8 by omega, show 88 + i - 16 - 16 - 16 - 16 - 16 - 8 = i by omega]

@[simp] theorem make_fieldF (op f : Byte) (a b c d e : Word) : (CmdWord.make op f a b c d e).fieldF = f := by
  apply BitVec.eq_of_getLsbD_eq
  intro i hi
  simp only [CmdWord.fieldF, CmdWord.make, BitVec.getLsbD_extractLsb', BitVec.getLsbD_append]
  simp [hi, show ¬ 80 + i < 16 by omega, show ¬ 80 + i - 16 < 16 by omega, show ¬ 80 + i - 16 - 16 < 16 by omega,
    show ¬ 80 + i - 16 - 16 - 16 < 16 by omega, show ¬ 80 + i - 16 - 16 - 16 - 16 < 16 by omega,
    show 80 + i - 16 - 16 - 16 - 16 - 16 = i by omega]

@[simp] theorem make_fieldA (op f : Byte) (a b c d e : Word) : (CmdWord.make op f a b c d e).fieldA = a := by
  apply BitVec.eq_of_getLsbD_eq
  intro i hi
  simp only [CmdWord.fieldA, CmdWord.make, BitVec.getLsbD_extractLsb', BitVec.getLsbD_append]
  simp [hi, show ¬ 64 + i < 16 by omega, show ¬ 64 + i - 16 < 16 by omega, show ¬ 64 + i - 16 - 16 < 16 by omega,
    show ¬ 64 + i - 16 - 16 - 16 < 16 by omega, show 64 + i - 16 - 16 - 16 - 16 = i by omega]

@[simp] theorem make_fieldB (op f : Byte) (a b c d e : Word) : (CmdWord.make op f a b c d e).fieldB = b := by
  apply BitVec.eq_of_getLsbD_eq
  intro i hi
  simp only [CmdWord.fieldB, CmdWord.make, BitVec.getLsbD_extractLsb', BitVec.getLsbD_append]
  simp [hi, show ¬ 48 + i < 16 by omega, show ¬ 48 + i - 16 < 16 by omega, show ¬ 48 + i - 16 - 16 < 16 by omega,
    show 48 + i - 16 - 16 - 16 = i by omega]

@[simp] theorem make_fieldC (op f : Byte) (a b c d e : Word) : (CmdWord.make op f a b c d e).fieldC = c := by
  apply BitVec.eq_of_getLsbD_eq
  intro i hi
  simp only [CmdWord.fieldC, CmdWord.make, BitVec.getLsbD_extractLsb', BitVec.getLsbD_append]
  simp [hi, show ¬ 32 + i < 16 by omega, show ¬ 32 + i - 16 < 16 by omega, show 32 + i - 16 - 16 = i by omega]

@[simp] theorem make_fieldD (op f : Byte) (a b c d e : Word) : (CmdWord.make op f a b c d e).fieldD = d := by
  apply BitVec.eq_of_getLsbD_eq
  intro i hi
  simp only [CmdWord.fieldD, CmdWord.make, BitVec.getLsbD_extractLsb', BitVec.getLsbD_append]
  simp [hi, show ¬ 16 + i < 16 by omega, show 16 + i - 16 = i by omega]

@[simp] theorem make_fieldE (op f : Byte) (a b c d e : Word) : (CmdWord.make op f a b c d e).fieldE = e := by
  apply BitVec.eq_of_getLsbD_eq
  intro i hi
  simp only [CmdWord.fieldE, CmdWord.make, BitVec.getLsbD_extractLsb', BitVec.getLsbD_append]
  simp [hi]

/-- An opcode selects its own command. -/
theorem ofOpcode_opcode (m : Mnemonic) : Mnemonic.ofOpcode m.opcode = some m := by cases m <;> decide

end Sys2Proof

namespace Sys2Proof.Laws.EncodesOpcode

/-- A command's word carries the opcode of its row (30_encoding R82, R88). -/
def Statement (i : Instr) : Prop := (encode i).op = i.mnemonic.opcode

theorem wrcmd (cmd : Word) : Statement (.wrcmd cmd) := make_op ..
theorem wrdata (val : Word) : Statement (.wrdata val) := make_op ..
theorem wrcmddata (cmd : Word) (hi lo : Byte) : Statement (.wrcmddata cmd hi lo) := make_op ..
theorem wrdata88 (hi lo : Byte) : Statement (.wrdata88 hi lo) := make_op ..
theorem wrreg (reg : Byte) (val : Word) : Statement (.wrreg reg val) := make_op ..
theorem setorient (o : BitVec 2) : Statement (.setorient o) := make_op ..
theorem orientxy (x y : Word) : Statement (.orientxy x y) := make_op ..
theorem setwindow (x1 y1 x2 y2 : Word) : Statement (.setwindow x1 y1 x2 y2) := make_op ..
theorem closewindow : Statement .closewindow := make_op ..
theorem setpoint (x y color : Word) : Statement (.setpoint x y color) := make_op ..
theorem fastfill (x1 y1 x2 y2 color : Word) : Statement (.fastfill x1 y1 x2 y2 color) := make_op ..
theorem begin : Statement .begin := make_op ..
theorem setbacklight (flag : BitVec 1) : Statement (.setbacklight flag) := make_op ..
theorem setintensity (level : Byte) : Statement (.setintensity level) := make_op ..
theorem whoami : Statement .whoami := make_op ..
theorem readtouch : Statement .readtouch := make_op ..

end Sys2Proof.Laws.EncodesOpcode
end

