-- ==== Sys2Proof/Laws/Ports.lean ====
section
/-! SUPPORT. The output registers: what a read sees after a write, and the canonical form, kept by every
operation (40_port_abstraction R118). -/

namespace Sys2Proof.Machine

@[simp] theorem read_push_same (p v : Nat) (t : OutFile) (h : v = 0 → OutFile.read t p = 0) :
    OutFile.read (OutFile.push p v t) p = v := by
  unfold OutFile.push; split
  · next h0 => rw [h h0, h0]
  · simp [OutFile.read]

theorem read_push_other {p q : Nat} (v : Nat) (t : OutFile) (h : p ≠ q) :
    OutFile.read (OutFile.push p v t) q = OutFile.read t q := by
  unfold OutFile.push; split <;> simp [OutFile.read, h]

/-- Every register a well-formed file lists after its head has a larger number. -/
theorem wf_head_lt {x : Nat × Nat} {t : OutFile} (h : OutFile.wf (x :: t) = true) :
    ∀ y ∈ t, x.1 < y.1 := by
  induction t generalizing x with
  | nil => simp
  | cons y t ih =>
    simp only [OutFile.wf, Bool.and_eq_true, decide_eq_true_eq] at h
    intro z hz
    rcases List.mem_cons.1 hz with rfl | hz
    · exact h.1.2
    · exact lt_trans h.1.2 (ih h.2 z hz)

theorem wf_tail {x : Nat × Nat} {t : OutFile} (h : OutFile.wf (x :: t) = true) : OutFile.wf t = true := by
  cases t with
  | nil => rfl
  | cons y t => simp only [OutFile.wf, Bool.and_eq_true] at h; exact h.2

theorem wf_head_ne_zero {x : Nat × Nat} {t : OutFile} (h : OutFile.wf (x :: t) = true) : x.2 ≠ 0 := by
  cases t with
  | nil => simpa [OutFile.wf] using h
  | cons y t => simp only [OutFile.wf, Bool.and_eq_true, bne_iff_ne] at h; exact h.1.1

theorem wf_cons {x : Nat × Nat} {t : OutFile} (h0 : x.2 ≠ 0) (hlt : ∀ y ∈ t, x.1 < y.1)
    (ht : OutFile.wf t = true) : OutFile.wf (x :: t) = true := by
  cases t with
  | nil => simpa [OutFile.wf] using h0
  | cons y t => simp [OutFile.wf, h0, ht, hlt y (by simp)]

theorem read_eq_zero_of_lt {t : OutFile} {p : Nat} (h : ∀ y ∈ t, p < y.1) : OutFile.read t p = 0 := by
  induction t with
  | nil => rfl
  | cons y t ih =>
    have hy := h y (by simp)
    rw [OutFile.read, if_neg (by omega), ih fun z hz => h z (List.mem_cons_of_mem _ hz)]

/-- What the written registers of a file can be. -/
theorem mem_write {o : OutFile} {p v : Nat} {y : Nat × Nat} (h : y ∈ OutFile.write o p v) :
    y ∈ o ∨ y.1 = p := by
  induction o with
  | nil =>
    unfold OutFile.write OutFile.push at h
    split at h <;> simp_all
  | cons x t ih =>
    unfold OutFile.write at h
    split at h
    · unfold OutFile.push at h; split at h <;> simp_all
      rcases h with h | h | h <;> simp_all
    · split at h
      · unfold OutFile.push at h; split at h <;> simp_all
        rcases h with h | h <;> simp_all
      · rcases List.mem_cons.1 h with h | h
        · simp_all
        · rcases ih h with h | h <;> simp_all

/-- A write keeps the canonical form. -/
theorem wf_write {o : OutFile} (h : OutFile.wf o = true) (p v : Nat) :
    OutFile.wf (OutFile.write o p v) = true := by
  induction o with
  | nil =>
    unfold OutFile.write OutFile.push
    split
    · rfl
    · simpa [OutFile.wf]
  | cons x t ih =>
    unfold OutFile.write
    have hlt := wf_head_lt h
    split
    · next hp =>
      unfold OutFile.push; split
      · exact h
      · next hv =>
        refine wf_cons hv (fun y hy => ?_) h
        rcases List.mem_cons.1 hy with rfl | hy
        · exact hp
        · exact lt_trans hp (hlt y hy)
    · split
      · next hp =>
        unfold OutFile.push; split
        · exact wf_tail h
        · next hv => exact wf_cons hv (fun y hy => by simpa [hp] using hlt y hy) (wf_tail h)
      · next h1 h2 =>
        refine wf_cons (wf_head_ne_zero h) (fun y hy => ?_) (ih (wf_tail h))
        rcases mem_write hy with hy | hy
        · exact hlt y hy
        · omega

/-- A register reads as it was written. -/
theorem read_write_same {o : OutFile} (h : OutFile.wf o = true) (p v : Nat) :
    OutFile.read (OutFile.write o p v) p = v := by
  induction o with
  | nil => exact read_push_same p v [] fun _ => rfl
  | cons x t ih =>
    unfold OutFile.write
    have hlt := wf_head_lt h
    split
    · next hp =>
      refine read_push_same p v _ fun _ => read_eq_zero_of_lt fun y hy => ?_
      rcases List.mem_cons.1 hy with rfl | hy
      · exact hp
      · exact lt_trans hp (hlt y hy)
    · split
      · next hp =>
        refine read_push_same p v t fun _ => read_eq_zero_of_lt fun y hy => ?_
        rw [hp]
        exact hlt y hy
      · next h1 h2 =>
        rw [OutFile.read, if_neg (fun e => h2 e.symm), ih (wf_tail h)]

/-- Every other register reads as before. -/
theorem read_write_other (o : OutFile) {p q : Nat} (v : Nat) (hq : p ≠ q) :
    OutFile.read (OutFile.write o p v) q = OutFile.read o q := by
  induction o with
  | nil => exact read_push_other v [] hq
  | cons x t ih =>
    unfold OutFile.write
    split
    · exact read_push_other v _ hq
    · split
      · next hp => rw [read_push_other v t hq, OutFile.read, if_neg (fun e => hq (hp.trans e))]
      · simp only [OutFile.read]; split
        · rfl
        · exact ih

theorem read_write {o : OutFile} (h : OutFile.wf o = true) (p v q : Nat) :
    OutFile.read (OutFile.write o p v) q = if q = p then v else OutFile.read o q := by
  split
  · next e => rw [e]; exact read_write_same h p v
  · next e => exact read_write_other o v fun e' => e e'.symm

/-- Two files in canonical form that read alike are equal. -/
theorem wf_ext {a b : OutFile} (ha : OutFile.wf a = true) (hb : OutFile.wf b = true)
    (h : ∀ p, OutFile.read a p = OutFile.read b p) : a = b := by
  induction a generalizing b with
  | nil =>
    cases b with
    | nil => rfl
    | cons y t =>
      have := h y.1
      rw [OutFile.read, OutFile.read, if_pos rfl] at this
      exact absurd this.symm (wf_head_ne_zero hb)
  | cons x s ih =>
    cases b with
    | nil =>
      have := h x.1
      rw [OutFile.read, OutFile.read, if_pos rfl] at this
      exact absurd this (wf_head_ne_zero ha)
    | cons y t =>
      have hx := wf_head_lt ha
      have hy := wf_head_lt hb
      have hk : x.1 = y.1 := by
        rcases lt_trichotomy x.1 y.1 with hlt | he | hgt
        · have := h x.1
          rw [OutFile.read, if_pos rfl, read_eq_zero_of_lt fun z hz => by
            rcases List.mem_cons.1 hz with rfl | hz
            · exact hlt
            · exact lt_trans hlt (hy z hz)] at this
          exact absurd this (wf_head_ne_zero ha)
        · exact he
        · have := h y.1
          rw [OutFile.read.eq_2 y.1 y t, if_pos rfl, read_eq_zero_of_lt fun z hz => by
            rcases List.mem_cons.1 hz with rfl | hz
            · exact hgt
            · exact lt_trans hgt (hx z hz)] at this
          exact absurd this.symm (wf_head_ne_zero hb)
      have hv : x.2 = y.2 := by
        have := h x.1
        rwa [OutFile.read, if_pos rfl, OutFile.read, if_pos hk.symm] at this
      have ht : s = t := ih (wf_tail ha) (wf_tail hb) fun p => by
        by_cases hp : x.1 = p
        · rw [read_eq_zero_of_lt fun z hz => hp ▸ hx z hz,
            read_eq_zero_of_lt fun z hz => (hk ▸ hp) ▸ hy z hz]
        · have := h p
          rwa [OutFile.read, if_neg hp, OutFile.read, if_neg (hk ▸ hp)] at this
      rw [ht, Prod.ext hk hv]

/-! The operations keep the canonical form. -/

@[simp] theorem wf_writePin {o : OutFile} (h : OutFile.wf o = true) (q : PinPos) (v : Level) :
    OutFile.wf (o.writePin q v) = true := wf_write h _ _

theorem wf_foldl {α : Type} (f : OutFile → α → OutFile)
    (hf : ∀ o a, OutFile.wf o = true → OutFile.wf (f o a) = true) (l : List α) {o : OutFile}
    (h : OutFile.wf o = true) : OutFile.wf (l.foldl f o) = true := by
  induction l generalizing o with
  | nil => exact h
  | cons a l ih => exact ih (hf o a h)

theorem wf_driveData {o : OutFile} (h : OutFile.wf o = true) (c : Cfg) (b : Byte) :
    OutFile.wf (o.driveData c b) = true := by
  unfold OutFile.driveData; split
  · exact wf_foldl _ (fun _ _ ho => wf_writePin ho _ _) _ h
  · exact wf_foldl _ (fun _ _ ho => wf_write ho _ _) _ h

theorem wf_outAfter {o : OutFile} (h : OutFile.wf o = true) (c : Cfg) (e : Event) :
    OutFile.wf (outAfter c o e) = true := by
  cases e with
  | cfg => exact wf_driveData (wf_foldl _ (fun _ _ ho => wf_writePin ho _ _) _ h) c _
  | sig s v => exact wf_writePin h _ _
  | data b => exact wf_driveData h c b
  | wait t => exact h

/-- Performing events keeps the canonical form of the output registers. -/
theorem wf_perform {s : State} (h : OutFile.wf s.out = true) (evs : List Event) :
    OutFile.wf (s.perform evs).out = true :=
  wf_foldl _ (fun _ e ho => wf_outAfter ho s.cfg e) evs h

/-! Bits. -/

theorem testBit_andNot (a m i : Nat) : (andNot a m).testBit i = (a.testBit i && !m.testBit i) := by
  simp only [andNot, Nat.testBit_xor, Nat.testBit_and]
  cases a.testBit i <;> cases m.testBit i <;> rfl

theorem testBit_one_shiftLeft (k i : Nat) : (1 <<< k).testBit i = decide (i = k) := by
  rw [Nat.one_shiftLeft, Nat.testBit_two_pow]
  simp [eq_comm]

/-- A single-pin write sets its own bit and leaves every other bit of every register alone. -/
theorem testBit_writePin {o : OutFile} (h : OutFile.wf o = true) (q : PinPos) (v : Level) (p i : Nat) :
    (OutFile.read (o.writePin q v) p).testBit i =
      if p = q.port ∧ i = q.bit then v else (OutFile.read o p).testBit i := by
  unfold OutFile.writePin
  rw [read_write h]
  by_cases hp : p = q.port
  · subst hp
    cases v
    · rw [if_pos rfl, if_neg (by simp), testBit_andNot, testBit_one_shiftLeft]
      by_cases hi : i = q.bit <;> simp [hi]
    · rw [if_pos rfl, if_pos rfl, Nat.testBit_or, testBit_one_shiftLeft]
      by_cases hi : i = q.bit <;> simp [hi]
  · simp [hp]

end Sys2Proof.Machine
end

