-- ==== Sys2Proof/Tests/Slice0.lean ====
section
/-! SUPPORT. Tests on single words and single steps, their expected results from 95_test_vectors, and for
each obligation with hypotheses a state and operands that meet them. -/

namespace Sys2Proof.Tests

open Sys2Proof.Machine

/-! The states the tests use. -/

/-- Values for the OPEN parameters. -/
def params : OpenParams where
  resetMode := .pulsed
  idString := "panel"
  adcFullScale := .bits10
  portStrategy := .direct
  pinBase := PinMap.straight
  pinAddOn := PinMap.straight
  altBoard := false
  touchPins := some ⟨⟨7, 0⟩, ⟨7, 1⟩, ⟨7, 2⟩, ⟨7, 3⟩⟩
  vRamStart := 0x48
  vRamEnd := 0x49
  tWrLow := 0
  tWrHigh := 0
  tSetup := 0
  tHold := 0

/-- The decided configuration. -/
def cfg : Cfg := Cfg.decided params

/-- After reset. -/
def atReset : State := State.resetWith cfg

/-- In `Ready` with the configuration `c`, the pins idle and only `CFG` in the trace. -/
def readyWith (c : Cfg) : State :=
  { State.resetWith c with
    life := .ready
    orient := 1
    pinsConfigured := true
    pins := Pins.undriven.idle c
    out := OutFile.configure [] c Pins.undriven
    trace := [.cfg] }

/-- In `Ready`, as the vectors of sections 3 to 6 start. -/
def ready : State := readyWith cfg

/-- The decided configuration with touch. -/
def touchCfg : Cfg := { cfg with hasTouch := true }

/-- In `Ready` with touch and the readings `l` to come. -/
def touchReady (l : List Reading) : State := { readyWith touchCfg with adcIn := l }

/-- A `READTOUCH` in progress, `n` triples thrown away, with the retry cap given. -/
def sampler (cap : Option Nat) (n : Nat) (l : List Reading) : State :=
  { readyWith { touchCfg with touchRetryCap := cap } with busy := true, sampling := some n, adcIn := l }

/-- A block in `Ready` with the configuration `c` and one command presented. -/
def given (c : Cfg) (i : Instr) : State := { readyWith c with cmds := [encode i] }

/-- `SETWINDOW`'s registers as vectors W1 to W4 list them. -/
def bounds (t : State) : List Nat := [t.hs.toNat, t.he.toNat, t.vs.toNat, t.ve.toNat]

/-- What a next state answers to a question. -/
def ask {α : Type} (r : Result) (q : State → α) : Option α :=
  match r with
  | .next t => some (q t)
  | .fault _ => none
  | .refused _ => none

/-- The refusal of an answer. -/
def refusal (r : Result) : Option Refusal :=
  match r with
  | .next _ => none
  | .fault _ => none
  | .refused x => some x

/-! Words written out from the spec's encodings (sections 3 to 7). -/

theorem test_decode_wrcmd : decode 0x010000220000000000000000 = .ok (.wrcmd 0x0022) := by decide

theorem test_decode_wrdata : decode 0x020012340000000000000000 = .ok (.wrdata 0x1234) := by decide

theorem test_decode_wrcmddata :
    decode 0x0300004E013F000000000000 = .ok (.wrcmddata 0x004E 0x01 0x3F) := by decide

theorem test_decode_wrdata88 : decode 0x0400F8000000000000000000 = .ok (.wrdata88 0xF8 0x00) := by decide

theorem test_decode_wrreg : decode 0x10000122FFFF000000000000 = .ok (.wrreg 0x22 0xFFFF) := by decide

theorem test_decode_setorient : decode 0x20FE00000000000000000000 = .ok (.setorient 2) := by decide

theorem test_decode_orientxy : decode 0x210000050007000000000000 = .ok (.orientxy 5 7) := by decide

theorem test_decode_setwindow : decode 0x220000050007000200030000 = .ok (.setwindow 5 7 2 3) := by decide

theorem test_decode_closewindow : decode 0x23FFFFFFFFFFFFFFFFFFFFFF = .ok .closewindow := by decide

theorem test_decode_setpoint :
    decode 0x240000EF013F000000001234 = .ok (.setpoint 239 319 0x1234) ∧
      decode 0x24000000000012345678FFFF = .ok (.setpoint 0 0 0xFFFF) := by decide

theorem test_decode_fastfill :
    decode 0x2500000A0014000C0015F800 = .ok (.fastfill 10 20 12 21 0xF800) := by decide

theorem test_decode_begin : decode 0x300000000000000000000000 = .ok .begin := by decide

theorem test_decode_setbacklight :
    decode 0x310100000000000000000000 = .ok (.setbacklight 1) ∧
      decode 0x31FE00000000000000000000 = .ok (.setbacklight 0) := by decide

theorem test_decode_setintensity : decode 0x328000000000000000000000 = .ok (.setintensity 128) := by decide

theorem test_decode_whoami : decode 0x330000000000000000000000 = .ok .whoami := by decide

theorem test_decode_readtouch : decode 0x340000000000000000000000 = .ok .readtouch := by decide

/-- X5: OP 0x26. -/
theorem test_decode_reserved :
    decode 0x260000000000000000000000 = .error (.reservedOpcode 0x26) := by decide

/-- Section 5: the words of `SETPOINT 319, 239, 0` and of F2. -/
theorem test_encode_words :
    encode (.setpoint 319 239 0) = 0x2400013F00EF000000000000 ∧
      encode (.fastfill 3 2 0 0 0xFFFF) = 0x25000003000200000000FFFF ∧
      encode (.wrreg 0x11 0x6830) = 0x100000116830000000000000 := by decide

/-- A table row's number is the whole command word. -/
theorem test_table_word :
    decodeTableWord 96 0x250000000000000000000000 = some (.fastfill 0 0 0 0 0) ∧
      decodeTableWord 96 0x350000000000000000000000 = none := by decide

/-! Assembly text (30_encoding R88; programs P1 and P4). -/

theorem test_text_setpoint :
    assembleText "SETPOINT 0, 0, 0xFFFF ; white".toList = some 0x24000000000000000000FFFF := by decide

theorem test_text_sleep : assembleText "  SLEEP".toList = some 0x310000000000000000000000 := by decide

/-! Ill-formed terms, one for each check. -/

theorem test_cfg_valid : cfg.valid = true ∧ touchCfg.valid = true := by decide

theorem test_ill_formed_count : (AsmLine.mk (.cmd .wrcmd) []).countOk = false ∧
    assemble ⟨.cmd .wrcmd, []⟩ = none := by decide

theorem test_ill_formed_range : (AsmLine.mk (.cmd .wrdata88) [256, 0]).rangesOk = false ∧
    assemble ⟨.cmd .wrdata88, [256, 0]⟩ = none := by decide

theorem test_ill_formed_size : ({ cfg with h := 257 } : Cfg).sizeOk = false ∧
    ({ cfg with h := 257 } : Cfg).valid = false := by decide

theorem test_ill_formed_strobe : ({ cfg with wrIdle := false } : Cfg).strobeOk = false ∧
    ({ cfg with wrIdle := false } : Cfg).valid = false := by decide

theorem test_ill_formed_delays : ({ cfg with tSlpout := 29999999 } : Cfg).delaysOk = false ∧
    ({ cfg with tSlpout := 29999999 } : Cfg).valid = false := by decide

theorem test_ill_formed_regs :
    ({ cfg with regmap := { cfg.regmap with xRamAddr := 0x22 } } : Cfg).regsOk = false ∧
      ({ cfg with regmap := { cfg.regmap with xRamAddr := 0x22 } } : Cfg).valid = false := by decide

theorem test_ill_formed_init : ({ cfg with initSeq := cfg.initSeq.eraseIdx 5 } : Cfg).initSeqOk = false ∧
    ({ cfg with initSeq := cfg.initSeq.eraseIdx 5 } : Cfg).valid = false := by decide

theorem test_ill_formed_pins :
    ({ cfg with pinAddOn := { PinMap.straight with cs := ⟨0, 0⟩ } } : Cfg).pinsOk = false ∧
      ({ cfg with pinAddOn := { PinMap.straight with cs := ⟨0, 0⟩ } } : Cfg).valid = false := by decide

theorem test_ill_formed_touch : ({ touchCfg with touchPins := none } : Cfg).touchOk = false ∧
    ({ touchCfg with touchPins := none } : Cfg).valid = false := by decide

/-- Two electrodes on one pin, and an electrode on the pin of D[0]. -/
theorem test_ill_formed_touch_pins :
    touchCfg.touchPinsOk ⟨⟨7, 0⟩, ⟨7, 0⟩, ⟨7, 2⟩, ⟨7, 3⟩⟩ = false ∧
      touchCfg.touchPinsOk ⟨⟨7, 0⟩, ⟨7, 1⟩, ⟨7, 2⟩, ⟨0, 0⟩⟩ = false := by decide

/-- A VCOM write to an index outside the table of R93. -/
theorem test_ill_formed_vcom :
    ({ cfg with initSeq := cfg.initSeq.set 8 (.write 0x99 0) } : Cfg).initSeqOk = false := by decide

/-! One step of each command. -/

/-- P-WRCMD-hi. -/
theorem test_wrcmd_high_byte_not_sent :
    ask (exec (.wrcmd 0xAB22) ready) (fun t => t.trace.drop 1) = some
      [.sig .dc false, .sig .cs false, .sig .wr false, .data 0x22, .sig .wr true, .sig .cs true] := by decide

/-- P-WRCMD-2. -/
theorem test_wrcmd_two_transfers :
    ask (exec (.wrcmd 0x0022) (readyWith { cfg with cmdXfers := .two })) (fun t =>
      (t.trace.drop 1, l2 t.cfg t.trace)) = some
      ([.sig .dc false, .sig .cs false, .sig .wr false, .data 0x00, .sig .wr true, .sig .wr false, .data 0x22,
        .sig .wr true, .sig .cs true], [.sel 0x0022]) := by decide

/-- P-WRDATA, with no index sent yet. -/
theorem test_wrdata_high_byte_first :
    ask (exec (.wrdata 0x1234) ready) (fun t => (t.trace.drop 1, l2 t.cfg t.trace)) = some
      ([.sig .dc true, .sig .cs false, .sig .wr false, .data 0x12, .sig .wr true, .sig .wr false, .data 0x34,
        .sig .wr true, .sig .cs true], [.bad, .bad]) := by decide

/-- P-WRCMDDATA. -/
theorem test_wrcmddata_one_bracket :
    ask (exec (.wrcmddata 0x004E 0x01 0x3F) ready) (fun t => (t.trace.drop 1, l2 t.cfg t.trace)) = some
      ([.sig .dc false, .sig .cs false, .sig .wr false, .data 0x4E, .sig .wr true, .sig .dc true,
        .sig .wr false, .data 0x01, .sig .wr true, .sig .wr false, .data 0x3F, .sig .wr true, .sig .cs true],
        [.sel 0x4E, .write 0x4E 0x013F]) := by decide

/-- P-WRDATA88. -/
theorem test_wrdata88 :
    ask (exec (.wrdata88 0xF8 0x00) ready) (fun t => (t.trace.drop 1, l1 t.cfg t.trace)) = some
      ([.sig .dc true, .sig .cs false, .sig .wr false, .data 0xF8, .sig .wr true, .sig .wr false, .data 0x00,
        .sig .wr true, .sig .cs true], [.dat 0xF8, .dat 0x00]) := by decide

/-- R-1, and the levels of the output register after it: D = 0x30 in bits 0 to 7, CS, DC, WR, RD, RST at 1. -/
theorem test_wrreg :
    ask (exec (.wrreg 0x11 0x6830) ready) (fun t => (l1 t.cfg t.trace, l2 t.cfg t.trace, t.out)) = some
      ([.cmd 0x11, .dat 0x68, .dat 0x30], [.sel 0x11, .write 0x11 0x6830], [(0, 0x1F30)]) := by decide

/-- Section 5, `SETORIENT` with F = 7. -/
theorem test_setorient : ask (exec (.setorient 3) ready) (fun t => (t.orient, t.trace)) = some (3, [.cfg]) := by
  decide

/-- Section 5, `ORIENTXY 5, 7` at orientations 0 and 2. -/
theorem test_orientxy :
    ask (exec (.orientxy 5 7) { ready with orient := 0 }) (fun t => t.responses) = some [.xy 0x000700EA] ∧
      ask (exec (.orientxy 5 7) { ready with orient := 2 }) (fun t => t.responses) = some [.xy 0x01380005] := by decide

/-- W1. -/
theorem test_setwindow_orient0 :
    ask (exec (.setwindow 5 7 2 3) { ready with orient := 0 }) (fun t => (bounds t, l2 t.cfg t.trace)) = some
      ([3, 7, 234, 237], [.sel 0x45, .write 0x45 3, .sel 0x46, .write 0x46 7, .sel 0x44, .write 0x44 0xEDEA,
        .sel 0x4E, .write 0x4E 3, .sel 0x4F, .write 0x4F 0x00EA, .sel 0x22]) := by decide

/-- W4 as W7 changes it. -/
theorem test_setwindow_unpacked :
    ask (exec (.setwindow 5 7 2 3) { readyWith { cfg with vwinPacked := false } with orient := 3 }) (fun t =>
      l2 t.cfg t.trace) = some
      [.sel 0x45, .write 0x45 2, .sel 0x46, .write 0x46 5, .sel 0x48, .write 0x48 3, .sel 0x49, .write 0x49 7,
        .sel 0x4E, .write 0x4E 2, .sel 0x4F, .write 0x4F 3, .sel 0x22] := by decide

/-- W6, at orientation 2. -/
theorem test_closewindow :
    ask (exec .closewindow { ready with orient := 2 }) (fun t => l2 t.cfg t.trace) = some
      [.sel 0x45, .write 0x45 0, .sel 0x46, .write 0x46 0x013F, .sel 0x44, .write 0x44 0xEF00,
        .sel 0x4E, .write 0x4E 0, .sel 0x4F, .write 0x4F 0, .sel 0x22] := by decide

/-- S-1. -/
theorem test_setpoint_orient1 :
    ask (exec (.setpoint 0 0 0xFFFF) ready) (fun t => l2 t.cfg t.trace) = some
      [.sel 0x4E, .write 0x4E 0x013F, .sel 0x4F, .write 0x4F 0x00EF, .sel 0x22, .write 0x22 0xFFFF] := by decide

/-- S-7. -/
theorem test_setpoint_orient2 :
    ask (exec (.setpoint 100 50 0x07E0) { ready with orient := 2 }) (fun t => (t.px1, t.py1)) =
      some (0x010D, 0x0064) := by decide

/-- F1: 125 events, six pixels. -/
theorem test_fastfill :
    ask (exec (.fastfill 10 20 12 21 0xF800) { ready with orient := 3 }) (fun t =>
      (t.trace.length, bounds t, t.count, (l2 t.cfg t.trace).drop 11)) = some
      (126, [10, 12, 20, 21], 0, List.replicate 6 (.write 0x22 0xF800)) := by decide +kernel

/-- F2 and program P5: reversed corners at orientation 0. -/
theorem test_fastfill_reversed :
    ask (exec (.fastfill 3 2 0 0 0xFFFF) { ready with orient := 0 }) (fun t =>
      (t.trace.length, bounds t, [t.px1, t.py1, t.px2, t.py2])) = some
      (180, [0, 2, 236, 239], [0, 239, 2, 236]) := by decide +kernel

/-- B1: how the trace of `BEGIN` starts. -/
theorem test_begin_first_events :
    ask (exec .begin atReset) (fun t => t.trace.take 12) = some
      [.cfg, .sig .rst false, .wait 20000, .sig .rst true, .sig .dc false, .sig .cs false, .sig .wr false,
        .data 0x00, .sig .wr true, .sig .dc true, .sig .wr false, .data 0x00] := by decide

/-- B3, the registers. -/
theorem test_begin_registers :
    ask (exec .begin atReset) (fun t => (t.life, t.orient, t.seqPc, t.count, bounds t)) =
      some (.ready, 1, 25, 0, [0, 319, 0, 239]) := by decide

/-- B4. -/
theorem test_setbacklight :
    ask (exec (.setbacklight 0) ready) (fun t => l2 t.cfg t.trace) = some [.sel 0x10, .write 0x10 1] ∧
      ask (exec (.setbacklight 1) ready) (fun t => l2 t.cfg t.trace) = some [.sel 0x10, .write 0x10 0] := by
  decide

/-- B5. -/
theorem test_setintensity : ask (exec (.setintensity 128) ready) (fun t => decide (t = ready)) = some true := by
  decide

/-- B6, through the step. -/
theorem test_whoami_from_reset :
    ask (step { atReset with cmds := [0x330000000000000000000000] }) (fun t =>
      (t.responses, t.life, t.trace, t.busy)) = some ([.identity "panel"], .uninit, [], false) := by decide

/-- T1: a difference of exactly 8 is accepted. -/
theorem test_readtouch_returns :
    ask (exec .readtouch (touchReady [100, 108, 200, 200, 50])) (fun t =>
      (t.sampling, t.rt2, t.adcIn, t.responses.length)) = some (none, 50, [], 1) := by decide

/-- T2: a difference of 9 throws the triple away. -/
theorem test_readtouch_retries :
    ask (exec .readtouch (touchReady [100, 109, 200, 200, 50, 100, 100, 200, 205, 51])) (fun t =>
      (t.sampling, t.adcIn, t.responses)) = some (some 1, [100, 100, 200, 205, 51], []) := by decide

/-- T5 with a cap of 3. -/
theorem test_readtouch_unstable :
    ask (step (sampler (some 3) 3 [])) (fun t => (t.busy, t.responses)) = some (false, [.unstable]) := by decide

/-- X1 to X3. -/
theorem test_refused_by_life :
    refusal (exec (.wrcmd 0x22) atReset) = some (.outOfLifecycle .uninit) ∧
      refusal (exec (.setorient 1) atReset) = some (.outOfLifecycle .uninit) ∧
      refusal (exec .begin ready) = some (.outOfLifecycle .ready) := by decide

/-- X6 to X10. -/
theorem test_refused_by_range :
    refusal (exec (.setpoint 320 0 0) ready) = some .coordinateOutOfRange ∧
      refusal (exec (.setpoint 0 240 0) ready) = some .coordinateOutOfRange ∧
      refusal (exec (.setpoint 240 0 0) { ready with orient := 0 }) = some .coordinateOutOfRange ∧
      refusal (exec (.setpoint 239 319 0) { ready with orient := 0 }) = none ∧
      refusal (exec (.fastfill 0 0 320 10 0) { ready with orient := 3 }) = some .coordinateOutOfRange := by decide

/-- LUT-A: the eight data lines in reverse order. -/
def reversed : PinMap :=
  { PinMap.straight with
    d0 := ⟨1, 7⟩, d1 := ⟨1, 6⟩, d2 := ⟨1, 5⟩, d3 := ⟨1, 4⟩, d4 := ⟨1, 3⟩, d5 := ⟨1, 2⟩, d6 := ⟨1, 1⟩
    d7 := ⟨1, 0⟩ }

theorem test_lut_a :
    [0x00, 0x01, 0x22, 0x4E, 0xA5, 0xF0, 0xFF].map (fun b => directPattern reversed 1 (BitVec.ofNat 8 b)) =
      [0x00, 0x80, 0x44, 0x72, 0xA5, 0x0F, 0xFF] := by decide +kernel

/-- LUT-B: the halves of the byte in two registers. -/
def halves : PinMap :=
  { PinMap.straight with
    d0 := ⟨1, 4⟩, d1 := ⟨1, 5⟩, d2 := ⟨1, 6⟩, d3 := ⟨1, 7⟩, d4 := ⟨2, 0⟩, d5 := ⟨2, 1⟩, d6 := ⟨2, 2⟩
    d7 := ⟨2, 3⟩ }

theorem test_lut_b :
    [directPattern halves 1 0x4E, directPattern halves 2 0x4E, dataMask halves 1, dataMask halves 2] =
      [0xE0, 0x04, 0xF0, 0x0F] := by decide

/-! For each obligation with hypotheses, a state and operands that meet them together. -/

/-- The configuration of the tests with two transfers a command. -/
def wideCfg : Cfg := { cfg with cmdXfers := .two }

theorem ready_life : ready.life = .ready := rfl

theorem ready_trace_inv : TraceInv ready :=
  ⟨by decide, by decide, by decide, fun _ => ⟨[], rfl⟩, by decide, fun _ => by decide⟩

theorem ready_whole_words : WholeWords ready := ⟨by decide, by decide⟩

theorem ready_life_inv : LifeInv ready := ⟨by decide, by decide, by decide, by decide⟩

theorem ready_port_inv : PortInv ready := ⟨by decide, by decide, by decide, by decide⟩

theorem ready_counters_inv : CountersInv ready := ⟨by decide, by decide⟩

theorem given_trace_inv (i : Instr) : TraceInv (given cfg i) :=
  ⟨nofun, nofun, ready_trace_inv.protocol, fun _ => ⟨[], rfl⟩, ready_trace_inv.pins, ready_trace_inv.quiet⟩

theorem wide_trace_inv : TraceInv (readyWith wideCfg) :=
  ⟨by decide, nofun, by decide, fun _ => ⟨[], rfl⟩, by decide, fun _ => by decide⟩

theorem test_witness_UnreadFieldsAreIgnored :
    (0x24000000000012345678FFFF : CmdWord) &&& Mnemonic.mask = Mnemonic.setpoint.opcode.setWidth 96 <<< 88 ∧
      (0x24000000000012345678FFFF : CmdWord) &&& Mnemonic.setpoint.readMask =
        (0x24FF0000000000000000FFFF : CmdWord) &&& Mnemonic.setpoint.readMask := by decide

/-- The boundary values of each reserved range, and the opcodes next to them. -/
theorem test_witness_ReservedOpcodesAreRefused :
    ([0x00, 0x05, 0x0F, 0x11, 0x1F, 0x26, 0x2F, 0x35, 0xFF].all fun op => (Mnemonic.ofOpcode op).isNone) ∧
      ([0x01, 0x04, 0x10, 0x20, 0x25, 0x30, 0x34].all fun op => (Mnemonic.ofOpcode op).isSome) ∧
      atReset.busy = false ∧ { atReset with cmds := [0] }.cmds = 0 :: [] ∧
      Mnemonic.ofOpcode ((0 : CmdWord).extractLsb' 88 8) = none ∧
      ready.life = .ready ∧ ready.cfg.hasTouch = false := by decide

theorem test_witness_AssemblyLinesHaveWords :
    (AsmLine.mk (.cmd .wrdata88) [255, 0]).wellFormed = true ∧
      (AsmLine.mk (.cmd .wrdata88) [256, 0]).wellFormed = false ∧
      assemble ⟨.cmd .wrreg, [0x0122, 0xFFFF]⟩ = some 0x10000122FFFF000000000000 ∧
      lineCommand (.cmd .wrreg) [0x0122, 0xFFFF] = some (.wrreg 0x22 0xFFFF) := by decide

theorem test_witness_StepRunsTheDecodedCommand :
    decode 0x330000000000000000000000 = .ok .whoami ∧ (∃ t, exec .whoami atReset = .next t) ∧
      ∃ r, exec .begin ready = .refused r := ⟨by decide, ⟨_, rfl⟩, ⟨_, rfl⟩⟩

/-- Also for the last clause on `WHOAMI`. -/
theorem test_witness_StepsWithoutAcceptance :
    (atReset.busy = false ∧ atReset.cmds = []) ∧ (sampler none 0 []).busy = true := by decide

/-- One command for each outcome of R222. -/
theorem test_witness_CommandsAreAcceptedExactly :
    refusalOf .whoami atReset = none ∧ refusalOf (.wrcmd 0) atReset = some (.outOfLifecycle .uninit) ∧
      refusalOf .readtouch ready = some .touchAbsent ∧
      refusalOf (.setpoint 319 239 0) ready = none ∧
      refusalOf (.setpoint 320 239 0) ready = some .coordinateOutOfRange := by decide

/-- The statements about one command from `Ready` with no other hypothesis: `WRCMD`, `WRDATA`, `WRDATA88`,
`WRCMDDATA`, `WRREG`, `SETBACKLIGHT`, `SETORIENT`, `SETINTENSITY`. -/
theorem test_witness_ready : ready.life = .ready ∧ atReset.life ≠ .ready := by decide

theorem test_witness_BusCommandsCostTheirEvents :
    ready.cfg.cmdXfers = .one ∧ (∃ t, exec (.wrcmd 0) ready = .next t) ∧
      (∃ t, exec (.wrdata 0) ready = .next t) ∧ ∃ t, exec (.wrcmddata 0 0 0) ready = .next t :=
  ⟨rfl, ⟨_, rfl⟩, ⟨_, rfl⟩, ⟨_, rfl⟩⟩

/-- The four orientations, each at a last point of its extent. -/
theorem test_witness_OrientxyAnswersTheTransform :
    ready.life = .ready ∧ ready.cfg.valid = true ∧ inRange ready.cfg 0 239 319 = true ∧
      inRange ready.cfg 1 319 239 = true ∧ inRange ready.cfg 2 239 319 = true ∧
      inRange ready.cfg 3 319 239 = true := by decide

theorem test_witness_TransformIsABijection :
    239 < sizeX cfg 0 ∧ 319 < sizeY cfg 0 ∧ 319 < cfg.w ∧ 239 < cfg.h ∧ 318 + 1 < sizeX cfg 1 ∧
      238 + 1 < sizeY cfg 1 := by decide

/-- For `SETWINDOW` (R176 and R177), `SETPOINT` and `FASTFILL`. -/
theorem test_witness_corners :
    ready.life = .ready ∧ ready.cfg.valid = true ∧ inRange ready.cfg ready.orient 319 239 = true ∧
      inRange ready.cfg ready.orient 0 0 = true := by decide

theorem test_witness_ClosewindowProgramsTheFullPanel : ready.life = .ready ∧ ready.cfg.valid = true := by
  decide

theorem test_witness_FillSendsTheWindowArea :
    ready.cfg.valid = true ∧ ∃ t, exec (.fastfill 3 2 0 0 0xFFFF) ready = .next t := ⟨by decide, ⟨_, rfl⟩⟩

/-- For the statements about `BEGIN` from reset. -/
theorem test_witness_begin :
    atReset.life = .uninit ∧ atReset.trace = [] ∧ atReset.cfg.valid = true := by decide

theorem test_witness_BeginBringsTheBlockUp_modes :
    atReset.cfg.resetMode = .pulsed ∧
      (State.resetWith { cfg with resetMode := .hardwired }).cfg.resetMode = .hardwired ∧
      ({ cfg with resetMode := .hardwired } : Cfg).valid = true := by decide

theorem test_witness_DecidedStartUpCosts :
    atReset.cfg = Cfg.decided params ∧ (∃ t, exec .begin atReset = .next t) ∧ ready.cfg = Cfg.decided params ∧
      ready.orient = 1 ∧ ∃ t, exec (.fastfill 0 0 319 239 0x001F) ready = .next t :=
  ⟨rfl, ⟨_, rfl⟩, rfl, rfl, ⟨_, rfl⟩⟩

theorem test_witness_OnlyBeginLeavesUninit :
    LifeInv { atReset with cmds := [encode .begin] } ∧
      ∃ t, step { atReset with cmds := [encode .begin] } = .next t :=
  ⟨⟨by decide, by decide, by decide, by decide⟩, ⟨_, rfl⟩⟩

/-- T1, at the threshold and at both ends of the scale, in the first pass and in a later one. -/
theorem test_witness_ReadtouchReturnsAnAgreeingTriple :
    let x : Triple := ⟨1015, 1023, 0, 8, 1023⟩
    let s := touchReady (x.readings ++ [5])
    let u := sampler (some 3) 2 (x.readings ++ [5])
    (∀ v ∈ x.readings, v.toNat ≤ s.cfg.adcFullScale.max) ∧ s.life = .ready ∧ s.cfg.hasTouch = true ∧
      s.cfg.touchRetryCap ≠ some 0 ∧ readingDiff x.xa x.xb ≤ s.cfg.touchNoise ∧
      readingDiff x.ya x.yb ≤ s.cfg.touchNoise ∧ u.busy = true ∧ u.sampling = some 2 ∧
      u.cfg.touchRetryCap = some 3 := by decide

/-- T2 and T3: a difference of 9 on either axis, in the first pass and in a later one. -/
theorem test_witness_DisagreeingTriplesAreThrownAway :
    let x : Triple := ⟨100, 109, 200, 200, 50⟩
    let y : Triple := ⟨300, 300, 400, 409, 7⟩
    let s := touchReady x.readings
    let u := sampler (some 3) 2 y.readings
    let v := { given touchCfg .readtouch with adcIn := x.readings }
    s.life = .ready ∧ s.cfg.hasTouch = true ∧ s.cfg.touchRetryCap ≠ some 0 ∧
      s.cfg.touchNoise < readingDiff x.xa x.xb ∧ u.busy = true ∧ u.sampling = some 2 ∧
      u.cfg.touchRetryCap = some 3 ∧ u.cfg.touchNoise < readingDiff y.ya y.yb ∧ v.busy = false ∧
      v.cmds = encode .readtouch :: [] ∧ decode (encode .readtouch) = .ok .readtouch ∧
      (v.accept (encode .readtouch) []).life = .ready := by decide

theorem test_witness_SamplerNeverReturnsADisagreement :
    touchCfg.touchPins.any touchCfg.touchPinsOk = true ∧
      ∃ r0 r1 r2 t, step (sampler none 1 [100, 100, 200, 205, 51]) = .next t ∧
        t.responses = (sampler none 1 []).responses ++ [.touch r0 r1 r2] :=
  ⟨by decide, _, _, _, _, rfl, rfl⟩

/-- T5: readings that alternate, and a triple that disagrees on Y alone. -/
theorem test_witness_ReadtouchMayNeverFinish :
    let xs : List Triple := [⟨0, 1023, 0, 1023, 0⟩, ⟨300, 300, 400, 409, 7⟩]
    let s := sampler none 0 (xs.flatMap Triple.readings)
    s.busy = true ∧ s.sampling = some 0 ∧ s.cfg.touchRetryCap = none ∧
      (∀ x ∈ xs, (∀ v ∈ x.readings, v.toNat ≤ s.cfg.adcFullScale.max) ∧
        (s.cfg.touchNoise < readingDiff x.xa x.xb ∨ s.cfg.touchNoise < readingDiff x.ya x.yb)) ∧
      s.adcIn = xs.flatMap Triple.readings ++ [] := by decide

theorem test_witness_CappedSamplerGivesUnstable :
    (sampler (some 3) 3 []).busy = true ∧ (sampler (some 3) 3 []).sampling = some 3 ∧
      (sampler (some 3) 3 []).cfg.touchRetryCap = some 3 ∧
      (readyWith { touchCfg with touchRetryCap := some 0 }).life = .ready ∧
      (readyWith { touchCfg with touchRetryCap := some 0 }).cfg.hasTouch = true := by decide

/-- For the statements about every step that answers a next state. -/
theorem test_witness_steps :
    (∃ t, step (given cfg (.wrcmd 0x22)) = .next t) ∧ (∃ t, step atReset = .next t) ∧
      ∃ t, step (sampler none 0 [100, 109, 200, 200, 50]) = .next t := ⟨⟨_, rfl⟩, ⟨_, rfl⟩, ⟨_, rfl⟩⟩

theorem test_witness_EventsDoNotDependOnHistory :
    ready.cfg = (given cfg .begin).cfg ∧ ready.orient = (given cfg .begin).orient ∧
      (∃ t, exec (.setpoint 0 0 0xFFFF) ready = .next t) ∧
      ∃ u, exec (.setpoint 0 0 0xFFFF) (given cfg .begin) = .next u := ⟨rfl, rfl, ⟨_, rfl⟩, ⟨_, rfl⟩⟩

theorem test_witness_OnlyBeginResetsAndWaits :
    (∃ t, exec (.wrcmd 0) ready = .next t) ∧ ∃ t, exec .begin atReset = .next t := ⟨⟨_, rfl⟩, ⟨_, rfl⟩⟩

theorem test_witness_BusCommandsReadAsTheirBytes :
    TraceInv ready ∧ ready.life = .ready ∧ TraceInv (readyWith wideCfg) ∧
      (∃ t, exec (.wrcmd 0x1122) ready = .next t) ∧ (∃ t, exec (.wrdata88 0xF8 0) ready = .next t) ∧
      (∃ t, exec (.wrdata 0x1234) ready = .next t) ∧ (∃ t, exec (.wrcmddata 0x4E 1 0x3F) ready = .next t) ∧
      (∃ t, exec (.wrreg 0xFF 0xFFFF) ready = .next t) ∧
      ∃ t, exec (.wrcmd 0x1122) (readyWith wideCfg) = .next t :=
  ⟨ready_trace_inv, rfl, wide_trace_inv, ⟨_, rfl⟩, ⟨_, rfl⟩, ⟨_, rfl⟩, ⟨_, rfl⟩, ⟨_, rfl⟩, ⟨_, rfl⟩⟩

theorem test_witness_CombinedWriteReadsAsTheTwo : TraceInv ready ∧ ready.life = .ready := ⟨ready_trace_inv, rfl⟩

theorem test_witness_CommandsReadAsRegisterWrites :
    TraceInv ready ∧ WholeWords ready ∧ ready.life = .ready ∧ (∃ t, exec (.wrreg 0xFF 1) ready = .next t) ∧
      (∃ t, exec (.setbacklight 1) ready = .next t) ∧ (∃ t, exec (.setbacklight 0) ready = .next t) ∧
      (∃ t, exec (.setwindow 0 0 319 239) ready = .next t) ∧ (∃ t, exec .closewindow ready = .next t) ∧
      ∃ t, exec (.setpoint 319 239 0) ready = .next t :=
  ⟨ready_trace_inv, ready_whole_words, rfl, ⟨_, rfl⟩, ⟨_, rfl⟩, ⟨_, rfl⟩, ⟨_, rfl⟩, ⟨_, rfl⟩, ⟨_, rfl⟩⟩

/-- F2 and, for the clause on a 320 by 240 panel, F4; also for the statement on the fill's framing. -/
theorem test_witness_FastfillCountLaw :
    TraceInv ready ∧ WholeWords ready ∧ ready.cfg.valid = true ∧ ready.cfg.w = 320 ∧ ready.cfg.h = 240 ∧
      (∃ t, exec (.fastfill 3 2 0 0 0xFFFF) ready = .next t) ∧
      ∃ t, exec (.fastfill 0 0 319 239 0x001F) ready = .next t :=
  ⟨ready_trace_inv, ready_whole_words, by decide, rfl, rfl, ⟨_, rfl⟩, ⟨_, rfl⟩⟩

/-- With a register selected and with none. -/
theorem test_witness_DataWordsGoToTheSelectedRegister :
    TraceInv ready ∧ WholeWords ready ∧ (∃ t, exec (.wrdata 0x1234) ready = .next t) ∧
      (l2After ready.cfg L2State.start (l1 ready.cfg ready.trace)).idx = none ∧
      ∃ t u, exec (.wrcmd 0x22) ready = .next t ∧
        (l2After t.cfg L2State.start (l1 t.cfg t.trace)).idx = some 0x22 ∧ exec (.wrdata 0xF800) t = .next u :=
  ⟨ready_trace_inv, ready_whole_words, ⟨_, rfl⟩, by decide, _, _, rfl, by decide, rfl⟩

theorem test_witness_SelectedIndexAfterACommand :
    TraceInv ready ∧ WholeWords ready ∧ ready.cfg.valid = true ∧ ready.life = .ready ∧
      (∃ t, exec (.wrcmd 0x22) ready = .next t) ∧ (∃ t, exec (.wrreg 0x11 0) ready = .next t) ∧
      (∃ t, exec (.wrdata 0) ready = .next t) ∧
      ∃ t u, exec (.setwindow 0 0 1 1) ready = .next t ∧
        (l2After t.cfg L2State.start (l1 t.cfg t.trace)).idx = some (t.cfg.regmap.ramData.setWidth 16) ∧
        streamKept true [.wrdata 0xF800] = true ∧ exec (.wrdata 0xF800) t = .next u :=
  ⟨ready_trace_inv, ready_whole_words, by decide, rfl, ⟨_, rfl⟩, ⟨_, rfl⟩, ⟨_, rfl⟩, _, _, rfl, by decide,
    rfl, rfl⟩

theorem test_witness_EveryStepKeepsLifeInv :
    LifeInv (given touchCfg .readtouch) ∧ ∃ t, step (given touchCfg .readtouch) = .next t :=
  ⟨⟨by decide, by decide, by decide, by decide⟩, ⟨_, rfl⟩⟩

theorem test_witness_EveryStepKeepsTheProtocol :
    (given cfg (.wrcmd 0x22)).cfg.valid = true ∧ TraceInv (given cfg (.wrcmd 0x22)) ∧
      ∃ t, step (given cfg (.wrcmd 0x22)) = .next t := ⟨by decide, given_trace_inv _, ⟨_, rfl⟩⟩

theorem test_witness_EveryStepKeepsThePorts :
    (given cfg (.wrcmd 0x22)).cfg.valid = true ∧ PortInv (given cfg (.wrcmd 0x22)) ∧
      ∃ t, step (given cfg (.wrcmd 0x22)) = .next t :=
  ⟨by decide, ⟨by decide, by decide, by decide, by decide⟩, ⟨_, rfl⟩⟩

theorem test_witness_EveryStepKeepsWholeWords :
    (given cfg (.wrdata 0x1234)).cfg.valid = true ∧ TraceInv (given cfg (.wrdata 0x1234)) ∧
      WholeWords (given cfg (.wrdata 0x1234)) ∧ ∃ t, step (given cfg (.wrdata 0x1234)) = .next t :=
  ⟨by decide, given_trace_inv _, ⟨by decide, by decide⟩, ⟨_, rfl⟩⟩

theorem test_witness_EveryStepKeepsTheCounters :
    CountersInv (given cfg (.fastfill 0 0 1 1 0)) ∧ ∃ t, step (given cfg (.fastfill 0 0 1 1 0)) = .next t :=
  ⟨⟨by decide, by decide⟩, ⟨_, rfl⟩⟩

theorem test_witness_StrategiesAreIndistinguishable :
    ({ cfg with pinBase := reversed, pinAddOn := halves } : Cfg).pinsOk = true ∧ OutFile.wf [(0, 1), (3, 5)] = true :=
  by decide

theorem test_witness_OnlyRawCommandsSendOtherIndices :
    TraceInv ready ∧ WholeWords ready ∧ ready.cfg.valid = true ∧ sendsHostIndex .closewindow = false ∧
      (∃ t, exec .closewindow ready = .next t) ∧ atReset.life = .uninit ∧ ∃ t, exec .begin atReset = .next t :=
  ⟨ready_trace_inv, ready_whole_words, by decide, rfl, ⟨_, rfl⟩, rfl, ⟨_, rfl⟩⟩

/-- A panel that is awake, holds the full window and is owed 30 ms. -/
def panel : Panel := ⟨0, 319, 0, 239, 0, 0, 0x30EF, 0x6830, true, 30000000, []⟩

/-- R68's instance of the scan order, with no recovery time. -/
def controller : Controller where
  scan := fun _ _ => scanXFirst
  afterReset := panel

/-- The scan order of R68's instance fills a window of one pixel, the window of `FASTFILL 7, 7, 7, 7`. -/
theorem test_witness_FastfillPaintsTheRectangle :
    ready.cfg.valid = true ∧ TraceInv ready ∧ WholeWords ready ∧ panel.awake = true ∧ panel.owed ≤ 30000000 ∧
      ∃ t, exec (.fastfill 7 7 7 7 1) ready = .next t ∧
        ScanFills (controller.scan panel.output panel.entry) t.hs.toNat t.he.toNat t.vs.toNat t.ve.toNat
          ((t.he.toNat - t.hs.toNat + 1) * (t.ve.toNat - t.vs.toNat + 1)) := by
  refine ⟨by decide, ready_trace_inv, ready_whole_words, rfl, by decide, _, rfl, ?_⟩
  change ScanFills scanXFirst 312 312 232 232 1
  refine ⟨by decide, fun x y h1 h2 h3 h4 => ⟨0, by decide, ?_⟩⟩
  have hx : x = 312 := by omega
  have hy : y = 232 := by omega
  subst hx hy; rfl

theorem test_witness_SetpointPaintsInsideTheWindow :
    ready.cfg.valid = true ∧ TraceInv ready ∧ WholeWords ready ∧ panel.awake = true ∧ panel.owed ≤ 30000000 ∧
      (∃ t, exec (.setpoint 0 0 0xFFFF) ready = .next t) ∧
      panel.inWindow (transform ready.cfg ready.orient 0 0) = true :=
  ⟨by decide, ready_trace_inv, ready_whole_words, rfl, by decide, ⟨_, rfl⟩, by decide⟩

/-- A panel of one pixel, on which every scan order fills the window, with each reset mode. -/
def tinyCfg (mode : ResetMode) : Cfg :=
  { cfg with
    w := 1
    h := 1
    resetMode := mode
    initSeq := cfg.initSeq.take 20 ++
      [.write 0x45 0, .write 0x46 0, .write 0x44 0, .write 0x4E 0, .write 0x4F 0] }

theorem tiny_scan_fills :
    ∀ output entry, ScanFills (controller.scan output entry) 0 (1 - 1) 0 (1 - 1) (1 * 1) := by
  intro _ _
  change ScanFills scanXFirst 0 0 0 0 1
  refine ⟨by decide, fun x y _ hx _ hy => ⟨0, by decide, ?_⟩⟩
  have hx : x = 0 := by omega
  have hy : y = 0 := by omega
  subst hx hy; rfl

theorem test_witness_BeginClearsThePanel :
    (tinyCfg .pulsed).valid = true ∧ (tinyCfg .hardwired).valid = true ∧
      (State.resetWith (tinyCfg .pulsed)).life = .uninit ∧ (State.resetWith (tinyCfg .pulsed)).trace = [] ∧
      (panel.pass 30000000).owed = 0 ∧ controller.recovery = 0 ∧
      0 < ({ controller with recovery := 5 } : Controller).recovery ∧
      ∀ output entry, ScanFills (controller.scan output entry) 0 ((tinyCfg .pulsed).w - 1) 0
        ((tinyCfg .pulsed).h - 1) ((tinyCfg .pulsed).w * (tinyCfg .pulsed).h) :=
  ⟨by decide, by decide, rfl, rfl, rfl, rfl, by decide, tiny_scan_fills⟩

/-- R264: streaming needs `SETWINDOW` and no command byte since. -/
theorem test_stream_kept :
    streamKept false [.setwindow 0 0 1 1, .wrdata 1, .wrdata88 0 2] = true ∧
      streamKept false [.begin, .wrdata 1] = false ∧
      streamKept false [.setwindow 0 0 1 1, .setpoint 0 0 1, .wrdata 1] = false := by decide

/-- A sleep-mode value with the sleep bit of R96 clear counts as a sleep exit (log entry 29), `SLEEP_IN` does not. -/
theorem test_may_leave_sleep :
    mayLeaveSleep cfg 0x10 0x0000 = true ∧ mayLeaveSleep cfg 0x10 0x0002 = true ∧
      mayLeaveSleep cfg 0x10 0x0001 = false ∧ mayLeaveSleep cfg 0x11 0x0000 = false := by decide

/-- P4 (70_reset_and_hazards R261): the host lets 30 ms pass after it wakes the panel, or 1 ns less. -/
theorem test_host_settle :
    let wake (d : Nat) := scriptTimed cfg (some (Pins.undriven.idle cfg)) L2State.start 1
      [(0, .setbacklight 0), (0, .setbacklight 1), (d, .wrreg 0x11 0x6830)]
    settleKept cfg none (wake 30000000) = true ∧ settleKept cfg none (wake 29999999) = false := by decide

theorem test_witness_ResetAbandonsTheCommand : ∃ t, exec .begin atReset = .next t := ⟨_, rfl⟩

theorem test_witness_ContractKeepingRunsAreAccepted :
    let is : List Instr := [.whoami, .begin, .setorient 0, .setpoint 239 319 0xFFFF, .whoami]
    let s : State := { atReset with cmds := is.map encode }
    s.busy = false ∧ s.sampling = none ∧ s.life = .uninit ∧ lifecycleKept false is = true ∧
      coordinatesKept s.cfg s.orient is = true ∧ ∀ i ∈ is, i ≠ .readtouch := by decide

end Sys2Proof.Tests
end

/-! SUPPORT. The decoder (30_encoding R81 to R85): which command a word is, which bits its operands are read
from, and what a step refuses. -/

namespace Sys2Proof.Machine

/-! ## Fields under a mask -/

/-- Words that agree under a mask agree in every field under the mask's own field. -/
theorem extractLsb'_and_eq {n : Nat} {w w' mask : BitVec n} (h : w &&& mask = w' &&& mask) (start len : Nat) :
    w.extractLsb' start len &&& mask.extractLsb' start len =
      w'.extractLsb' start len &&& mask.extractLsb' start len := by
  rw [← BitVec.extractLsb'_and, h, BitVec.extractLsb'_and]

/-- Words that agree under a mask agree in every field that the mask covers. -/
theorem extractLsb'_eq_of_covered {n : Nat} {w w' mask : BitVec n} (h : w &&& mask = w' &&& mask)
    {start len : Nat} (covered : mask.extractLsb' start len = BitVec.allOnes len) :
    w.extractLsb' start len = w'.extractLsb' start len := by
  simpa only [covered, BitVec.and_allOnes] using extractLsb'_and_eq h start len

/-- `OP` stands above every other field, with no bit above it (30_encoding R81). -/
theorem op_setWidth (w : CmdWord) : w.op.setWidth 96 = w >>> 88 := by
  apply BitVec.eq_of_toNat_eq
  have hw : w.toNat < 2 ^ 96 := w.isLt
  simp only [CmdWord.op, BitVec.toNat_setWidth, BitVec.extractLsb'_toNat, BitVec.toNat_ushiftRight,
    Nat.shiftRight_eq_div_pow]
  omega

/-- The mask of every row keeps `OP`, in its place, and nothing else (30_encoding R99). -/
theorem and_mask_eq (w : CmdWord) : w &&& Mnemonic.mask = w.op.setWidth 96 <<< 88 := by
  rw [op_setWidth, BitVec.shiftLeft_ushiftRight]
  rfl

/-- The opcode that a pattern carries. -/
theorem pattern_op (op : Byte) : CmdWord.op (op.setWidth 96 <<< 88) = op := by
  apply BitVec.eq_of_getLsbD_eq
  intro i hi
  simp [CmdWord.op, hi, show 88 + i < 96 by omega]

/-- A word matches the pattern of an opcode exactly when its `OP` is that opcode. -/
theorem and_mask_eq_pattern_iff (w : CmdWord) (op : Byte) :
    w &&& Mnemonic.mask = op.setWidth 96 <<< 88 ↔ w.op = op := by
  rw [and_mask_eq]
  constructor
  · intro h
    rw [← pattern_op w.op, h, pattern_op]
  · rintro rfl
    rfl

/-! ## Opcodes -/

/-- An opcode selects the command it is the number of, and no other. -/
theorem ofOpcode_eq_some_iff (op : Byte) (m : Mnemonic) : Mnemonic.ofOpcode op = some m ↔ op = m.opcode := by
  constructor
  · intro h
    have hm : (m.opcode == op) = true := List.find?_some (p := fun k : Mnemonic => k.opcode == op) h
    exact (beq_iff_eq.mp hm).symm
  · rintro rfl
    exact ofOpcode_opcode m

/-- The values of `OP` that 30_encoding R82 leaves out, as R85 lists them. -/
theorem ofOpcode_eq_none_iff (op : Byte) :
    Mnemonic.ofOpcode op = none ↔
      op.toNat = 0 ∨ (5 ≤ op.toNat ∧ op.toNat ≤ 0x0F) ∨ (0x11 ≤ op.toNat ∧ op.toNat ≤ 0x1F) ∨
        (0x26 ≤ op.toNat ∧ op.toNat ≤ 0x2F) ∨ (0x35 ≤ op.toNat ∧ op.toNat ≤ 0xFF) := by
  have hnone : Mnemonic.ofOpcode op = none ↔ ∀ m ∈ Mnemonic.all, m.opcode.toNat ≠ op.toNat := by
    simp [Mnemonic.ofOpcode, List.find?_eq_none, BitVec.toNat_inj]
  have hlt : op.toNat < 256 := op.isLt
  simp only [hnone, Mnemonic.all, Mnemonic.opcode, List.forall_mem_cons, List.not_mem_nil, false_imp_iff,
    implies_true, and_true, BitVec.reduceToNat]
  omega

/-! ## The decoder -/

/-- The operands put together for a row make a command of that row. -/
@[simp] theorem build_mnemonic (m : Mnemonic) (w : CmdWord) : (m.build w).mnemonic = m := by cases m <;> rfl

/-- A word with the opcode of a row decodes to that row's command. -/
theorem decode_of_op {w : CmdWord} {m : Mnemonic} (h : w.op = m.opcode) : decode w = .ok (m.build w) := by
  simp [decode, (ofOpcode_eq_some_iff w.op m).mpr h]

/-- A word with a reserved opcode is rejected by the opcode's name (30_encoding R85). -/
theorem decode_of_reserved {w : CmdWord} (h : Mnemonic.ofOpcode w.op = none) :
    decode w = .error (.reservedOpcode w.op) := by
  simp [decode, h]

/-- A word decodes to a command of a row exactly when its `OP` is the row's. -/
theorem decode_mnemonic_iff (w : CmdWord) (m : Mnemonic) :
    (∃ i, decode w = .ok i ∧ i.mnemonic = m) ↔ w.op = m.opcode := by
  constructor
  · rintro ⟨i, hdec, rfl⟩
    cases hop : Mnemonic.ofOpcode w.op with
    | none => simp [decode_of_reserved hop] at hdec
    | some m =>
      have hw : w.op = m.opcode := (ofOpcode_eq_some_iff w.op m).mp hop
      obtain rfl : m.build w = i := by simpa [decode_of_op hw] using hdec
      rwa [build_mnemonic]
  · intro h
    exact ⟨m.build w, decode_of_op h, build_mnemonic m w⟩

/-! ## The bits a command reads -/

section ReadMask

variable {w w' mask : CmdWord}

/-! One rule for each field of 30_encoding R81 that a mask covers. -/

theorem op_eq_of_covered (h : w &&& mask = w' &&& mask) (hc : mask.op = 0xFF) : w.op = w'.op :=
  extractLsb'_eq_of_covered h hc

theorem fieldF_eq_of_covered (h : w &&& mask = w' &&& mask) (hc : mask.fieldF = 0xFF) : w.fieldF = w'.fieldF :=
  extractLsb'_eq_of_covered h hc

theorem fieldA_eq_of_covered (h : w &&& mask = w' &&& mask) (hc : mask.fieldA = 0xFFFF) :
    w.fieldA = w'.fieldA := extractLsb'_eq_of_covered h hc

theorem fieldB_eq_of_covered (h : w &&& mask = w' &&& mask) (hc : mask.fieldB = 0xFFFF) :
    w.fieldB = w'.fieldB := extractLsb'_eq_of_covered h hc

theorem fieldC_eq_of_covered (h : w &&& mask = w' &&& mask) (hc : mask.fieldC = 0xFFFF) :
    w.fieldC = w'.fieldC := extractLsb'_eq_of_covered h hc

theorem fieldD_eq_of_covered (h : w &&& mask = w' &&& mask) (hc : mask.fieldD = 0xFFFF) :
    w.fieldD = w'.fieldD := extractLsb'_eq_of_covered h hc

theorem fieldE_eq_of_covered (h : w &&& mask = w' &&& mask) (hc : mask.fieldE = 0xFFFF) :
    w.fieldE = w'.fieldE := extractLsb'_eq_of_covered h hc

/-- A slice of `F` from its bit 0, where the mask covers no more of the field. -/
theorem fieldF_slice_eq_of_covered (h : w &&& mask = w' &&& mask) {len : Nat}
    (hc : mask.fieldF.extractLsb' 0 len = BitVec.allOnes len) :
    w.fieldF.extractLsb' 0 len = w'.fieldF.extractLsb' 0 len :=
  extractLsb'_eq_of_covered (extractLsb'_and_eq h 80 8) hc

/-- A slice of `A` from its bit 0, where the mask covers no more of the field. -/
theorem fieldA_slice_eq_of_covered (h : w &&& mask = w' &&& mask) {len : Nat}
    (hc : mask.fieldA.extractLsb' 0 len = BitVec.allOnes len) :
    w.fieldA.extractLsb' 0 len = w'.fieldA.extractLsb' 0 len :=
  extractLsb'_eq_of_covered (extractLsb'_and_eq h 64 16) hc

/-- Every command reads `OP`. -/
theorem op_eq_of_readMask {m : Mnemonic} (h : w &&& m.readMask = w' &&& m.readMask) : w.op = w'.op :=
  op_eq_of_covered h (by cases m <;> decide)

/-- The operands of a row are made of bits that the row's `readMask` covers (30_encoding R83). -/
theorem build_eq_of_readMask {m : Mnemonic} (h : w &&& m.readMask = w' &&& m.readMask) :
    m.build w = m.build w' := by
  cases m with
  | wrcmd => simp only [Mnemonic.build, fieldA_eq_of_covered h (by decide)]
  | wrdata => simp only [Mnemonic.build, fieldA_eq_of_covered h (by decide)]
  | wrcmddata =>
    simp only [Mnemonic.build, fieldA_eq_of_covered h (by decide), fieldB_eq_of_covered h (by decide)]
  | wrdata88 => simp only [Mnemonic.build, fieldA_eq_of_covered h (by decide)]
  | wrreg =>
    simp only [Mnemonic.build, fieldA_slice_eq_of_covered h (len := 8) (by decide),
      fieldB_eq_of_covered h (by decide)]
  | setorient => simp only [Mnemonic.build, fieldF_slice_eq_of_covered h (len := 2) (by decide)]
  | orientxy =>
    simp only [Mnemonic.build, fieldA_eq_of_covered h (by decide), fieldB_eq_of_covered h (by decide)]
  | setwindow =>
    simp only [Mnemonic.build, fieldA_eq_of_covered h (by decide), fieldB_eq_of_covered h (by decide),
      fieldC_eq_of_covered h (by decide), fieldD_eq_of_covered h (by decide)]
  | closewindow => rfl
  | setpoint =>
    simp only [Mnemonic.build, fieldA_eq_of_covered h (by decide), fieldB_eq_of_covered h (by decide),
      fieldE_eq_of_covered h (by decide)]
  | fastfill =>
    simp only [Mnemonic.build, fieldA_eq_of_covered h (by decide), fieldB_eq_of_covered h (by decide),
      fieldC_eq_of_covered h (by decide), fieldD_eq_of_covered h (by decide),
      fieldE_eq_of_covered h (by decide)]
  | begin => rfl
  | setbacklight => simp only [Mnemonic.build, fieldF_slice_eq_of_covered h (len := 1) (by decide)]
  | setintensity => simp only [Mnemonic.build, fieldF_eq_of_covered h (by decide)]
  | whoami => rfl
  | readtouch => rfl

end ReadMask

/-! ## What a step refuses -/

/-- A word that the decoder rejects, presented to a block that is not busy: the step refuses it by name. -/
theorem step_of_decode_error {s : State} {w : CmdWord} {rest : List CmdWord} {op : Byte} (hb : s.busy = false)
    (hc : s.cmds = w :: rest) (hd : decode w = .error (.reservedOpcode op)) :
    step s = .refused (.reservedOpcode op) := by
  have h : stepBlock s.cfg s.toInputs s.toBlock = .refused (.reservedOpcode op) := by
    simp [stepBlock, hb, hc, hd]
  simp only [step, h]

/-- `READTOUCH` in `Ready` without touch passes the check of `LIFE` and fails the next (44_lifecycle R209). -/
theorem exec_readtouch_of_no_touch {s : State} (hl : s.life = .ready) (ht : s.cfg.hasTouch = false) :
    exec .readtouch s = .refused .touchAbsent := by
  calc exec .readtouch s
    _ = whenReady s (if s.cfg.hasTouch then .next (touchPass 0 s) else .refused .touchAbsent) := rfl
    _ = .refused .touchAbsent := by simp [hl, ht]

/-! ## The statements -/

/-- Settles O2: `OP` alone decides the row, and a row's operands are read under its `readMask`. -/
theorem unreadFieldsAreIgnored : Obligations.UnreadFieldsAreIgnored := by
  refine ⟨rfl, fun m w => ?_, fun m w w' hrow hread => ?_⟩
  · rw [and_mask_eq_pattern_iff, decode_mnemonic_iff]
  · have hop : w.op = m.opcode := (and_mask_eq_pattern_iff w m.opcode).mp hrow
    have hop' : w'.op = m.opcode := (op_eq_of_readMask hread).symm.trans hop
    rw [decode_of_op hop, decode_of_op hop', build_eq_of_readMask hread]

/-- Settles O3: R85's list is what R82 leaves out; a reserved word stops at the decoder, `READTOUCH` without
touch at its own check. -/
theorem reservedOpcodesAreRefused : Obligations.ReservedOpcodesAreRefused := by
  refine ⟨ofOpcode_eq_none_iff, fun s w rest hb hc hr => ?_, fun s => exec_readtouch_of_no_touch⟩
  exact step_of_decode_error hb hc (decode_of_reserved hr)

end Sys2Proof.Machine

/-! SUPPORT. The data byte in the output registers (40_port_abstraction R118, R119): the bits of the
conditional-bit-test pattern, of the lookup table and of the shifted group, and that they agree. -/

namespace Sys2Proof.Machine

/-! ## The conditional-bit-test pattern -/

/-- Setting one bit for each element that passes a test sets the bits of those elements and no other. -/
theorem testBit_foldl_setBit {α : Type} (c : α → Bool) (f : α → Nat) (l : List α) (a k : Nat) :
    (l.foldl (fun acc x => if c x then acc ||| (1 <<< f x) else acc) a).testBit k =
      (a.testBit k || l.any fun x => f x == k && c x) := by
  induction l generalizing a with
  | nil => simp
  | cons x l ih =>
    rw [List.foldl_cons, ih, List.any_cons]
    cases hc : c x
    · simp
    · rw [if_pos rfl, Nat.testBit_or, testBit_one_shiftLeft, Bool.or_assoc, Bool.and_true,
        BEq.comm (a := f x), beq_eq_decide]

theorem testBit_bitTestPattern (m : PinMap) (p : Nat) (b : Byte) (k : Nat) :
    (bitTestPattern m p b).testBit k = (dataGroup m p).any fun x => x.1.bit == k && b.getLsbD x.2 := by
  rw [bitTestPattern, testBit_foldl_setBit, Nat.zero_testBit, Bool.false_or]

/-- A test on the lines of register `p` is a test on all eight lines that asks for the register too. -/
theorem any_dataGroup (m : PinMap) (p k : Nat) (b : Byte) :
    ((dataGroup m p).any fun x => x.1.bit == k && b.getLsbD x.2) =
      m.data.zipIdx.any fun x => x.1.port == p && x.1.bit == k && b.getLsbD x.2 := by
  simp only [dataGroup, List.any_filter, Bool.and_assoc]

/-! ## The lookup table -/

@[simp] theorem length_lut (m : PinMap) (p : Nat) : (lut m p).length = 256 := by simp [lut]

@[simp] theorem lut_getElem?_toNat (m : PinMap) (p : Nat) (b : Byte) :
    (lut m p)[b.toNat]? = some (bitTestPattern m p b) := by
  have hb : b.toNat < 256 := b.isLt
  simp [lut, List.getElem?_range hb]

/-! ## The shifted group -/

theorem testBit_groupMask (g : List (PinPos × Nat)) (k : Nat) :
    (groupMask g).testBit k = g.any fun x => x.2 == k := by
  simpa [groupMask] using testBit_foldl_setBit (fun _ => true) Prod.snd g 0 k

/-- The byte under a group's mask holds the bits of the byte that the group carries. -/
theorem testBit_and_groupMask (g : List (PinPos × Nat)) (b : Byte) (j : Nat) :
    (b.toNat &&& groupMask g).testBit j = g.any fun x => x.2 == j && b.getLsbD x.2 := by
  rw [Nat.testBit_and, testBit_groupMask, BitVec.testBit_toNat, Bool.eq_iff_iff]
  simp only [Bool.and_eq_true, List.any_eq_true, beq_iff_eq]
  constructor
  · rintro ⟨hj, x, hx, rfl⟩
    exact ⟨x, hx, rfl, hj⟩
  · rintro ⟨x, hx, rfl, hj⟩
    exact ⟨hj, x, hx, rfl⟩

theorem inByteOrder_eq_true_iff {g : List (PinPos × Nat)} {q : PinPos} {i : Nat} :
    inByteOrder g q i = true ↔ ∀ x ∈ g, x.1.bit + i = q.bit + x.2 := by simp [inByteOrder]

/-- Where every line of a group is as far from its `D[i]` as the others, the shift brings each to its place. -/
theorem testBit_shiftedPattern {g : List (PinPos × Nat)} {n i : Nat}
    (h : ∀ x ∈ g, x.1.bit + i = n + x.2) (b : Byte) (k : Nat) :
    (shiftedPattern g n i b).testBit k = g.any fun x => x.1.bit == k && b.getLsbD x.2 := by
  unfold shiftedPattern
  split
  · next hle =>
    rw [Nat.testBit_shiftLeft, testBit_and_groupMask, Bool.eq_iff_iff]
    simp only [Bool.and_eq_true, List.any_eq_true, beq_iff_eq, decide_eq_true_eq]
    constructor
    · rintro ⟨hk, x, hx, hj, hb⟩
      have := h x hx
      exact ⟨x, hx, by omega, hb⟩
    · rintro ⟨x, hx, hj, hb⟩
      have := h x hx
      exact ⟨by omega, x, hx, by omega, hb⟩
  · next hgt =>
    rw [Nat.testBit_shiftRight, testBit_and_groupMask, Bool.eq_iff_iff]
    simp only [Bool.and_eq_true, List.any_eq_true, beq_iff_eq]
    refine exists_congr fun x => and_congr_right fun hx => and_congr_left fun _ => ?_
    have := h x hx
    omega

/-! ## The direct strategy's pattern -/

/-- The direct strategy's pattern is the conditional-bit-test pattern, whichever way it is made (R118,
R119). -/
theorem directPattern_eq_bitTestPattern (m : PinMap) (p : Nat) (b : Byte) :
    directPattern m p b = bitTestPattern m p b := by
  unfold directPattern
  split
  · next hg => rw [bitTestPattern, hg, List.foldl_nil]
  · next q i rest hg =>
    split
    · next hord =>
      have hall : ∀ x ∈ (q, i) :: rest, x.1.bit + i = q.bit + x.2 :=
        List.forall_mem_cons.mpr ⟨rfl, inByteOrder_eq_true_iff.mp hord⟩
      refine Nat.eq_of_testBit_eq fun k => ?_
      rw [testBit_shiftedPattern hall, testBit_bitTestPattern, hg]
    · rw [List.getD_eq_getElem?_getD, lut_getElem?_toNat, Option.getD_some]

/-! ## The statement -/

/-- Settles O54: entry `b` of the table and the direct strategy's pattern are both `bitTestPattern m p b`,
whose bits are the tests of R119. -/
theorem lookupTableMatchesBitTests : Obligations.LookupTableMatchesBitTests := by
  intro m p
  have hbits (b : Byte) (k : Nat) := (testBit_bitTestPattern m p b k).trans (any_dataGroup m p k b)
  refine ⟨length_lut m p, fun b => ⟨⟨_, lut_getElem?_toNat m p b, hbits b⟩, fun k => ?_⟩⟩
  rw [directPattern_eq_bitTestPattern, hbits]

end Sys2Proof.Machine

/-! SUPPORT. What the bus commands cost (41_bus_protocol R138): the number of events of a transfer, of each
procedure built from transfers, and of an accepted command. -/

namespace Sys2Proof.Machine

/-! ## The procedures -/

@[simp] theorem length_strobe (b : Byte) : (strobe b).length = 3 := rfl

@[simp] theorem length_cmdBytes (c : Cfg) (cmd : Word) :
    (cmdBytes c cmd).length = if c.cmdXfers = .two then 6 else 3 := by
  unfold cmdBytes; cases c.cmdXfers <;> rfl

@[simp] theorem length_dataBytes (hi lo : Byte) : (dataBytes hi lo).length = 6 := rfl

/-- Around its command bytes `WRCMD` has DC and the two edges of CS. -/
theorem length_commandWrite (c : Cfg) (cmd : Word) :
    (commandWrite c cmd).length = (cmdBytes c cmd).length + 3 := by
  simp only [commandWrite, List.length_append, List.length_cons, List.length_nil]; omega

@[simp] theorem length_dataWrite (c : Cfg) (hi lo : Byte) : (dataWrite c hi lo).length = 9 := rfl

/-- Around its command bytes `WRCMDDATA` has DC twice, the two edges of CS and two transfers of data. -/
theorem length_commandDataWrite (c : Cfg) (cmd : Word) (hi lo : Byte) :
    (commandDataWrite c cmd hi lo).length = (cmdBytes c cmd).length + 10 := by
  simp only [commandDataWrite, List.length_append, List.length_cons, List.length_nil, length_dataBytes]; omega

/-! ## The commands -/

/-- An accepted command lengthens the trace by its own events. -/
theorem length_trace_of_exec {i : Instr} {s t : State} (h : exec i s = .next t) :
    t.trace.length = s.trace.length + (commandEvents s.cfg s.orient i).length := by
  rw [(exec_ran h).trace, List.length_append]

/-! ## The statement -/

/-- Settles O12: each command costs the length of its procedure, and with one transfer a command the command
bytes are 3 of its events. -/
theorem busCommandsCostTheirEvents : Obligations.BusCommandsCostTheirEvents := by
  refine ⟨length_strobe, fun s t v hi lo hone => ?_⟩
  have hcmd : (cmdBytes s.cfg v).length = 3 := by simp [hone]
  refine ⟨fun h => ?_, fun h => ?_, fun h => ?_⟩
  · rw [length_trace_of_exec h, commandEvents, length_commandWrite, hcmd]
  · rw [length_trace_of_exec h, commandEvents, length_dataWrite]
  · rw [length_trace_of_exec h, commandEvents, length_commandDataWrite, hcmd]

end Sys2Proof.Machine

/-! SUPPORT. The window of a rectangle does not depend on how its corners are named (43_geometry R177). -/

namespace Sys2Proof.Machine

/-! ## The sorts -/

theorem minWord_comm (a b : Word) : minWord a b = minWord b a :=
  BitVec.eq_of_toNat_eq (by simp only [minWord_toNat, Nat.min_comm])

theorem maxWord_comm (a b : Word) : maxWord a b = maxWord b a :=
  BitVec.eq_of_toNat_eq (by simp only [maxWord_toNat, Nat.max_comm])

/-! ## The bounds of a window -/

/-- `HS`, `HE`, `VS`, `VE` of the window with the corners given (43_geometry R176). -/
def windowBounds (c : Cfg) (o : BitVec 2) (x1 y1 x2 y2 : Word) : Word × Word × Word × Word :=
  (minWord (physX c o x1 y1) (physX c o x2 y2), maxWord (physX c o x1 y1) (physX c o x2 y2),
    minWord (physY c o x1 y1) (physY c o x2 y2), maxWord (physY c o x1 y1) (physY c o x2 y2))

theorem setWindow_bounds (x1 y1 x2 y2 : Word) (s : State) :
    ((setWindow x1 y1 x2 y2 s).hs, (setWindow x1 y1 x2 y2 s).he, (setWindow x1 y1 x2 y2 s).vs,
      (setWindow x1 y1 x2 y2 s).ve) = windowBounds s.cfg s.orient x1 y1 x2 y2 := rfl

/-- `SetWindow` sends its bounds and nothing else that depends on the corners. -/
theorem setWindow_trace (x1 y1 x2 y2 : Word) (s : State) :
    (setWindow x1 y1 x2 y2 s).trace =
      s.trace ++ windowEvents s.cfg (setWindow x1 y1 x2 y2 s).hs (setWindow x1 y1 x2 y2 s).he
        (setWindow x1 y1 x2 y2 s).vs (setWindow x1 y1 x2 y2 s).ve := rfl

/-- "In every orientation each physical coordinate depends on exactly one logical coordinate" (43_geometry
R177): crossed in orientations 0 and 2, straight in 1 and 3. -/
theorem phys_depends_on_one (c : Cfg) (o : BitVec 2) :
    ((∀ x x' y, physX c o x y = physX c o x' y) ∧ ∀ x y y', physY c o x y = physY c o x y') ∨
      (∀ x y y', physX c o x y = physX c o x y') ∧ ∀ x x' y, physY c o x y = physY c o x' y := by
  rcases orientation_cases o with rfl | rfl | rfl | rfl
  · exact .inl ⟨fun _ _ _ => rfl, fun _ _ _ => rfl⟩
  · exact .inr ⟨fun _ _ _ => rfl, fun _ _ _ => rfl⟩
  · exact .inl ⟨fun _ _ _ => rfl, fun _ _ _ => rfl⟩
  · exact .inr ⟨fun _ _ _ => rfl, fun _ _ _ => rfl⟩

/-- The two corners exchanged. -/
theorem windowBounds_swap (c : Cfg) (o : BitVec 2) (x1 y1 x2 y2 : Word) :
    windowBounds c o x2 y2 x1 y1 = windowBounds c o x1 y1 x2 y2 := by
  simp only [windowBounds, minWord_comm (physX c o x2 y2), maxWord_comm (physX c o x2 y2),
    minWord_comm (physY c o x2 y2), maxWord_comm (physY c o x2 y2)]

/-- Only the columns exchanged: one physical axis keeps its pair of values, the other exchanges them. -/
theorem windowBounds_swap_columns (c : Cfg) (o : BitVec 2) (x1 y1 x2 y2 : Word) :
    windowBounds c o x2 y1 x1 y2 = windowBounds c o x1 y1 x2 y2 := by
  rcases phys_depends_on_one c o with ⟨hx, hy⟩ | ⟨hx, hy⟩
  · simp only [windowBounds, hx x2 x1 y1, hx x1 x2 y2, hy x2 y1 y2, hy x1 y2 y1,
      minWord_comm (physY c o x2 y2), maxWord_comm (physY c o x2 y2)]
  · simp only [windowBounds, hx x2 y1 y2, hx x1 y2 y1, hy x2 x1 y1, hy x1 x2 y2,
      minWord_comm (physX c o x2 y2), maxWord_comm (physX c o x2 y2)]

/-- Only the rows exchanged. -/
theorem windowBounds_swap_rows (c : Cfg) (o : BitVec 2) (x1 y1 x2 y2 : Word) :
    windowBounds c o x1 y2 x2 y1 = windowBounds c o x1 y1 x2 y2 :=
  (windowBounds_swap c o x2 y1 x1 y2).trans (windowBounds_swap_columns c o x1 y1 x2 y2)

/-! ## The command -/

theorem exec_setwindow {s : State} {x1 y1 x2 y2 : Word} (hl : s.life = .ready)
    (h1 : inRange s.cfg s.orient x1 y1 = true) (h2 : inRange s.cfg s.orient x2 y2 = true) :
    exec (.setwindow x1 y1 x2 y2) s = .next (setWindow x1 y1 x2 y2 s) :=
  whenReady_next.2 ⟨hl, whenInRange_next.2 ⟨Bool.and_eq_true_iff.2 ⟨h1, h2⟩, rfl⟩⟩

/-- Corners with the same bounds answer the same trace and the same window. -/
theorem exec_setwindow_of_bounds_eq {s : State} {x1 y1 x2 y2 a1 b1 a2 b2 : Word} (hl : s.life = .ready)
    (h1 : inRange s.cfg s.orient a1 b1 = true) (h2 : inRange s.cfg s.orient a2 b2 = true)
    (hb : windowBounds s.cfg s.orient a1 b1 a2 b2 = windowBounds s.cfg s.orient x1 y1 x2 y2) :
    let t := setWindow x1 y1 x2 y2 s
    ∃ u, exec (.setwindow a1 b1 a2 b2) s = .next u ∧
      u.trace = t.trace ∧ u.hs = t.hs ∧ u.he = t.he ∧ u.vs = t.vs ∧ u.ve = t.ve := by
  simp only [← setWindow_bounds, Prod.mk.injEq] at hb
  obtain ⟨hhs, hhe, hvs, hve⟩ := hb
  refine ⟨_, exec_setwindow hl h1 h2, ?_, hhs, hhe, hvs, hve⟩
  rw [setWindow_trace, setWindow_trace, hhs, hhe, hvs, hve]

/-! ## The statement -/

/-- Settles O19: `inRange` tests each coordinate alone, so every naming of the corners is in range, and each
has the bounds of the first. -/
theorem windowOrderIndependence : Obligations.WindowOrderIndependence := by
  intro s x1 y1 x2 y2 hl h1 h2
  refine ⟨_, exec_setwindow hl h1 h2, fun i hi => ?_⟩
  obtain ⟨hx1, hy1⟩ := (inRange_iff ..).1 h1
  obtain ⟨hx2, hy2⟩ := (inRange_iff ..).1 h2
  have h21 : inRange s.cfg s.orient x2 y1 = true := (inRange_iff ..).2 ⟨hx2, hy1⟩
  have h12 : inRange s.cfg s.orient x1 y2 = true := (inRange_iff ..).2 ⟨hx1, hy2⟩
  simp only [List.mem_cons, List.not_mem_nil, or_false] at hi
  rcases hi with rfl | rfl | rfl
  · exact exec_setwindow_of_bounds_eq hl h21 h12 (windowBounds_swap_columns ..)
  · exact exec_setwindow_of_bounds_eq hl h12 h21 (windowBounds_swap_rows ..)
  · exact exec_setwindow_of_bounds_eq hl h2 h1 (windowBounds_swap ..)

end Sys2Proof.Machine

/-! SUPPORT. What the controller reads from a run of events sent between quiet wires (20_memory R61, R62): a run
has a reading of its own, runs put one after the other are read one after the other, and a whole trace is read
on from where it stands. -/

namespace Sys2Proof.Machine

/-! ## L1: runs of events -/

/-- From wires with the levels `P` the events read as `items` at L1, and the wires have `P` again after them. -/
structure Sends (c : Cfg) (P : Pins → Prop) (evs : List Event) (items : List L1Item) : Prop where
  noCfg : Event.cfg ∉ evs
  reads : ∀ p, P p → l1From c (some p) evs = items
  keeps : ∀ p, P p → P (evs.foldl (pinsAfter c) p)

theorem Sends.append {c : Cfg} {P : Pins → Prop} {a b : List Event} {x y : List L1Item}
    (ha : Sends c P a x) (hb : Sends c P b y) : Sends c P (a ++ b) (x ++ y) where
  noCfg := by simp [ha.noCfg, hb.noCfg]
  reads p hp := by
    rw [l1From_append, wires_foldl c a ha.noCfg, ha.reads p hp, hb.reads _ (ha.keeps p hp)]
  keeps p hp := by
    rw [List.foldl_append]
    exact hb.keeps _ (ha.keeps p hp)

/-- The fill loop repeats its pixel's reading. -/
theorem Sends.fillLoop {c : Cfg} {P : Pins → Prop} {pixel : List Event} {items : List L1Item}
    (h : Sends c P pixel items) (n : Nat) :
    Sends c P (fillLoop pixel n) (List.replicate n items).flatten := by
  induction n with
  | zero => exact ⟨List.not_mem_nil, fun _ _ => rfl, fun _ hp => hp⟩
  | succ n ih =>
    rw [List.replicate_succ, List.flatten_cons]
    exact h.append ih

theorem sends_commandWrite (c : Cfg) (cmd : Word) :
    Sends c (Quiet c) (commandWrite c cmd) (commandItems c cmd) where
  noCfg := cfg_notMem_commandWrite c cmd
  reads p hp := l1_commandWrite c p hp cmd
  keeps p hp := by rw [pins_commandWrite]; exact ⟨rfl, rfl, hp.rd⟩

theorem sends_regWrite (c : Cfg) (reg : Byte) (val : Word) :
    Sends c (Quiet c) (regWrite c reg val) (registerItems c reg val) where
  noCfg := cfg_notMem_regWrite c reg val
  reads p hp := l1_regWrite c p hp reg val
  keeps p hp := by rw [pins_regWrite]; exact ⟨rfl, rfl, hp.rd⟩

/-! ## L1: data in a bracket -/

/-- The wires inside a bracket of data, between two bytes. -/
structure Streaming (c : Cfg) (p : Pins) : Prop where
  cs : p.cs = c.csActive
  dc : p.dc = c.dcData
  wr : p.wr = true
  rd : p.rd = c.rdIdle

/-- A stream of data with the bracket of 41_bus_protocol R131 around it. -/
def dataBracket (c : Cfg) (evs : List Event) : List Event :=
  [.sig .dc c.dcData, .sig .cs c.csActive] ++ evs ++ [.sig .cs c.csInactive]

/-- The two framings of a fill (43_geometry R184): one bracket around all pixels, or one around each. -/
theorem fillEvents_eq_dataBracket (c : Cfg) (color : Word) (n : Nat) :
    fillEvents c color n =
      if c.fillOneBracket then dataBracket c (fillLoop (dataBytes (hiByte color) (loByte color)) n)
      else fillLoop (dataBracket c (dataBytes (hiByte color) (loByte color))) n := by
  unfold fillEvents pixelEvents
  split <;> rfl

theorem sends_dataBytes (c : Cfg) (hi lo : Byte) :
    Sends c (Streaming c) (dataBytes hi lo) [.dat hi, .dat lo] where
  noCfg := cfg_notMem_dataBytes hi lo
  reads p hp := l1_dataBytes c p hp.cs hp.dc hp.rd hi lo
  keeps p hp := by rw [pins_dataBytes]; exact ⟨hp.cs, hp.dc, rfl, hp.rd⟩

/-- The edges of the bracket latch nothing: only a rising WR does (20_memory R61). -/
theorem Sends.dataBracket {c : Cfg} {evs : List Event} {items : List L1Item}
    (h : Sends c (Streaming c) evs items) : Sends c (Quiet c) (dataBracket c evs) items := by
  have opened (p : Pins) (hp : Quiet c p) : Streaming c { p with dc := c.dcData, cs := c.csActive } :=
    ⟨rfl, rfl, hp.wr, hp.rd⟩
  refine ⟨by simp [Machine.dataBracket, h.noCfg], fun p hp => ?_, fun p hp => ?_⟩
  · calc l1From c (some p) (Machine.dataBracket c evs)
      _ = l1From c (some { p with dc := c.dcData, cs := c.csActive }) (evs ++ [.sig .cs c.csInactive]) := rfl
      _ = items ++ [] := by rw [l1From_append, h.reads _ (opened p hp), wires_foldl c evs h.noCfg]; rfl
      _ = items := List.append_nil items
  · have hs := h.keeps _ (opened p hp)
    simp only [Machine.dataBracket, List.foldl_append]
    exact ⟨rfl, hs.wr, hs.rd⟩

/-- In either framing a fill sends its pixels one after the other (43_geometry R182, R184). -/
theorem sends_fillEvents (c : Cfg) (color : Word) (n : Nat) :
    Sends c (Quiet c) (fillEvents c color n) (List.replicate n (dataItems color)).flatten := by
  have hpixel : Sends c (Streaming c) (dataBytes (hiByte color) (loByte color)) (dataItems color) :=
    sends_dataBytes c _ _
  rw [fillEvents_eq_dataBracket]
  split
  · exact (hpixel.fillLoop n).dataBracket
  · exact hpixel.dataBracket.fillLoop n

/-! ## L1: the window -/

/-- The register writes of `SetWindow` at L1 (43_geometry R176), without the RAM-data command after them. -/
def boundItems (c : Cfg) (hs he vs ve : Word) : List L1Item :=
  registerItems c c.regmap.hRamStart hs ++ registerItems c c.regmap.hRamEnd he ++
    (if c.vwinPacked then registerItems c c.regmap.vRamPos (packedRows vs ve)
      else registerItems c c.regmap.vRamStart vs ++ registerItems c c.regmap.vRamEnd ve) ++
    registerItems c c.regmap.xRamAddr hs ++ registerItems c c.regmap.yRamAddr vs

theorem sends_windowEvents (c : Cfg) (hs he vs ve : Word) :
    Sends c (Quiet c) (windowEvents c hs he vs ve)
      (boundItems c hs he vs ve ++ commandItems c (c.regmap.ramData.setWidth 16)) := by
  have hrows : Sends c (Quiet c)
      (if c.vwinPacked then regWrite c c.regmap.vRamPos (packedRows vs ve)
        else regWrite c c.regmap.vRamStart vs ++ regWrite c c.regmap.vRamEnd ve)
      (if c.vwinPacked then registerItems c c.regmap.vRamPos (packedRows vs ve)
        else registerItems c c.regmap.vRamStart vs ++ registerItems c c.regmap.vRamEnd ve) := by
    split
    · exact sends_regWrite c _ _
    · exact (sends_regWrite c _ _).append (sends_regWrite c _ _)
  exact (((((sends_regWrite c _ _).append (sends_regWrite c _ _)).append hrows).append
    (sends_regWrite c _ _)).append (sends_regWrite c _ _)).append (sends_commandWrite c _)

/-- A register's command ends with its index byte, whether or not a high byte comes before it. -/
theorem commandItems_setWidth (c : Cfg) (reg : Byte) :
    ∃ high, commandItems c (reg.setWidth 16) = high ++ [.cmd reg] := by
  unfold commandItems
  rw [loByte_setWidth]
  split
  · exact ⟨[], rfl⟩
  · exact ⟨[_], rfl⟩

/-! ## L2: runs of bytes -/

/-- From nothing pending the bytes read as `out` at L2, and leave nothing pending and `r` selected. -/
def Writes (c : Cfg) (items : List L1Item) (out : List L2Item) (r : Word) : Prop :=
  ∀ idx, l2From c (.whole idx) items = out ∧ l2After c (.whole idx) items = .whole (some r)

theorem writes_registerItems (c : Cfg) (reg : Byte) (val : Word) :
    Writes c (registerItems c reg val) (registerWrites reg val) (reg.setWidth 16) :=
  fun idx => l2_register c idx reg val

theorem writes_commandItems (c : Cfg) (reg : Byte) :
    Writes c (commandItems c (reg.setWidth 16)) [.sel (reg.setWidth 16)] (reg.setWidth 16) := by
  intro idx
  have h := l2_command c idx (reg.setWidth 16)
  rwa [selectedIndex_reg] at h

/-- What follows may rest on the index the first run selects. -/
theorem Writes.followed {c : Cfg} {a b : List L1Item} {x y : List L2Item} {r q : Word} (ha : Writes c a x r)
    (hb : l2From c (.whole (some r)) b = y ∧ l2After c (.whole (some r)) b = .whole (some q)) :
    Writes c (a ++ b) (x ++ y) q := by
  intro idx
  obtain ⟨hread, hafter⟩ := ha idx
  rw [l2From_append, l2After_append, hread, hafter, hb.1, hb.2]
  exact ⟨rfl, rfl⟩

theorem Writes.append {c : Cfg} {a b : List L1Item} {x y : List L2Item} {r q : Word} (ha : Writes c a x r)
    (hb : Writes c b y q) : Writes c (a ++ b) (x ++ y) q :=
  ha.followed (hb (some r))

theorem writes_windowItems (c : Cfg) (hs he vs ve : Word) :
    Writes c (boundItems c hs he vs ve ++ commandItems c (c.regmap.ramData.setWidth 16))
      (windowWrites c hs he vs ve) (c.regmap.ramData.setWidth 16) := by
  have hrows : ∃ r, Writes c
      (if c.vwinPacked then registerItems c c.regmap.vRamPos (packedRows vs ve)
        else registerItems c c.regmap.vRamStart vs ++ registerItems c c.regmap.vRamEnd ve)
      (if c.vwinPacked then registerWrites c.regmap.vRamPos (packedRows vs ve)
        else registerWrites c.regmap.vRamStart vs ++ registerWrites c.regmap.vRamEnd ve) r := by
    split
    · exact ⟨_, writes_registerItems c _ _⟩
    · exact ⟨_, (writes_registerItems c _ _).append (writes_registerItems c _ _)⟩
  obtain ⟨r, hrows⟩ := hrows
  exact (((((writes_registerItems c _ _).append (writes_registerItems c _ _)).append hrows).append
    (writes_registerItems c _ _)).append (writes_registerItems c _ _)).append (writes_commandItems c _)

/-- Words of data one after the other all go to the selected index (20_memory R62). -/
theorem l2_data_replicate (c : Cfg) (r v : Word) (n : Nat) :
    l2From c (.whole (some r)) (List.replicate n (dataItems v)).flatten = List.replicate n (.write r v) ∧
      l2After c (.whole (some r)) (List.replicate n (dataItems v)).flatten = .whole (some r) := by
  induction n with
  | zero => exact ⟨rfl, rfl⟩
  | succ n ih =>
    obtain ⟨hread, hafter⟩ := l2_data c r v
    rw [List.replicate_succ, List.flatten_cons, l2From_append, l2After_append, hread, hafter, ih.1, ih.2]
    exact ⟨rfl, rfl⟩

/-! ## A whole trace -/

/-- There is one `CFG` (41_bus_protocol R137): none after the first. -/
theorem cfg_notMem_of_protocolFrom {c : Cfg} {p : Pins} {es : List Event} (h : protocolFrom c p es = true) :
    Event.cfg ∉ es := by
  induction es generalizing p with
  | nil => exact List.not_mem_nil
  | cons e es ih =>
    obtain ⟨he, hes⟩ := Bool.and_eq_true_iff.1 h
    have hne : Event.cfg ≠ e := by
      rintro rfl
      exact Bool.false_ne_true he
    exact List.not_mem_cons_of_ne_of_not_mem hne (ih hes)

/-- In `Ready` the wires that the reading of the trace ends on are the pins. -/
theorem TraceInv.wires {s : State} (h : TraceInv s) (hl : s.life = .ready) :
    s.trace.foldl (wiresAfter s.cfg) none = some s.pins := by
  obtain ⟨es, hes⟩ := h.started hl
  have hprotocol := h.protocol
  rw [hes] at hprotocol
  rw [h.pins, hes]
  exact wires_foldl s.cfg es (cfg_notMem_of_protocolFrom hprotocol) _

theorem TraceInv.quietPins {s : State} (h : TraceInv s) (hl : s.life = .ready) : Quiet s.cfg s.pins := by
  obtain ⟨hcs, hwr, hrd, -⟩ := h.quiet hl
  exact ⟨hcs, hwr, hrd⟩

/-- A run sent in `Ready` adds its reading to L1. -/
theorem l1_trace_append {s : State} {evs : List Event} {items : List L1Item} (h : TraceInv s)
    (hl : s.life = .ready) (he : Sends s.cfg (Quiet s.cfg) evs items) :
    l1 s.cfg (s.trace ++ evs) = l1 s.cfg s.trace ++ items := by
  rw [l1, l1From_append, h.wires hl, he.reads _ (h.quietPins hl)]
  rfl

/-- With no word pending, the reading of the trace carries only a selected index. -/
theorem WholeWords.l2After_eq {s : State} (h : WholeWords s) :
    ∃ idx, l2After s.cfg L2State.start (l1 s.cfg s.trace) = .whole idx := by
  obtain ⟨hhalf, hhigh⟩ := h
  revert hhalf hhigh
  cases l2After s.cfg L2State.start (l1 s.cfg s.trace) with
  | mk idx half high =>
    rintro rfl rfl
    exact ⟨idx, rfl⟩

/-- A run sent in `Ready` with no word pending adds its reading to L2. -/
theorem l2_trace_append {s : State} {evs : List Event} {items : List L1Item} {out : List L2Item} {r : Word}
    (h : TraceInv s) (hw : WholeWords s) (hl : s.life = .ready) (he : Sends s.cfg (Quiet s.cfg) evs items)
    (ho : Writes s.cfg items out r) : l2 s.cfg (s.trace ++ evs) = l2 s.cfg s.trace ++ out := by
  obtain ⟨idx, hidx⟩ := hw.l2After_eq
  rw [l2, l1_trace_append h hl he, l2From_append, hidx, (ho idx).1]
  rfl

end Sys2Proof.Machine

/-! SUPPORT. The count law of the fill (43_geometry R183): how many pixels a fill sends, that its window holds no
pixel, and what it adds to the trace. -/

namespace Sys2Proof.Machine

/-! ## The sides of the rectangle -/

/-- `|a - b| + 1`: how many columns or rows lie from one coordinate to the other. -/
def side (a b : Word) : Nat := (b.toNat - a.toNat) + (a.toNat - b.toNat) + 1

theorem maxWord_sub_minWord (a b : Word) : (maxWord a b).toNat - (minWord a b).toNat + 1 = side a b := by
  rw [maxWord_toNat, minWord_toNat, side]; omega

theorem fillCount_sorted (x1 y1 x2 y2 : Word) :
    fillCount (minWord x1 x2) (minWord y1 y2) (maxWord x1 x2) (maxWord y1 y2) = side x1 x2 * side y1 y2 := by
  rw [fillCount, maxWord_sub_minWord, maxWord_sub_minWord]

theorem side_le {a b : Word} {n : Nat} (ha : a.toNat < n) (hb : b.toNat < n) : side a b ≤ n := by
  rw [side]; omega

/-- The extent of any orientation is the panel or the panel turned (43_geometry R171). -/
theorem size_cases (c : Cfg) (o : BitVec 2) :
    sizeX c o = c.h ∧ sizeY c o = c.w ∨ sizeX c o = c.w ∧ sizeY c o = c.h := by
  rcases orientation_cases o with rfl | rfl | rfl | rfl
  · exact .inl ⟨rfl, rfl⟩
  · exact .inr ⟨rfl, rfl⟩
  · exact .inl ⟨rfl, rfl⟩
  · exact .inr ⟨rfl, rfl⟩

/-- On a 320 by 240 panel (43_geometry R183): the product is at most 76 800. -/
theorem sides_bound {c : Cfg} {o : BitVec 2} {x1 y1 x2 y2 : Word} (h1 : inRange c o x1 y1 = true)
    (h2 : inRange c o x2 y2 = true) (hw : c.w = 320) (hh : c.h = 240) :
    side x1 x2 ≤ 320 ∧ side y1 y2 ≤ 320 ∧ side x1 x2 * side y1 y2 < 2 ^ 17 := by
  obtain ⟨hx1, hy1⟩ := (inRange_iff ..).1 h1
  obtain ⟨hx2, hy2⟩ := (inRange_iff ..).1 h2
  have hx := side_le hx1 hx2
  have hy := side_le hy1 hy2
  have harea := Nat.mul_le_mul hx hy
  rcases size_cases c o with ⟨hsx, hsy⟩ | ⟨hsx, hsy⟩
  · simp only [hsx, hsy, hw, hh] at hx hy harea; omega
  · simp only [hsx, hsy, hw, hh] at hx hy harea; omega

/-! ## The window holds no pixel -/

/-- The registers that `SetWindow` writes (43_geometry R176). -/
def windowRegs (c : Cfg) : List Byte :=
  [c.regmap.vRamPos, c.regmap.hRamStart, c.regmap.hRamEnd, c.regmap.xRamAddr, c.regmap.yRamAddr] ++
    if c.vwinPacked then [] else [c.regmap.vRamStart, c.regmap.vRamEnd]

/-- Each named register has an address of its own, so none of the window is the RAM data port. -/
theorem ramData_notMem_windowRegs {c : Cfg} (h : c.valid = true) : c.regmap.ramData ∉ windowRegs c := by
  have hnodup : c.namedRegs.Nodup := of_decide_eq_true (valid_regsOk h)
  have hpart : c.regmap.ramData :: windowRegs c <:+: c.namedRegs :=
    ⟨[c.regmap.oscStart, c.regmap.outputCtrl, c.regmap.lcdDriveAc, c.regmap.displayCtrl, c.regmap.frameCycle,
      c.regmap.gateScanStart, c.regmap.sleepMode, c.regmap.entryMode], c.regmap.powers ++ c.regmap.gammas,
      by simp [windowRegs, Cfg.namedRegs]⟩
  exact (List.nodup_cons.1 (hnodup.sublist hpart.sublist)).1

@[simp] theorem isPixel_sel (c : Cfg) (r : Word) : isPixel c (.sel r) = false := rfl

@[simp] theorem isPixel_write (c : Cfg) (r v : Word) :
    isPixel c (.write r v) = (r == c.regmap.ramData.setWidth 16) := rfl

theorem filter_isPixel_registerWrites {c : Cfg} {reg : Byte} (h : reg ≠ c.regmap.ramData) (val : Word) :
    (registerWrites reg val).filter (isPixel c) = [] := by
  have hne : (reg.setWidth 16 : Word) ≠ c.regmap.ramData.setWidth 16 := by
    intro he
    exact h (by rw [← loByte_setWidth reg, he, loByte_setWidth])
  simp [registerWrites, hne]

theorem filter_isPixel_windowWrites {c : Cfg} (h : c.valid = true) (hs he vs ve : Word) :
    (windowWrites c hs he vs ve).filter (isPixel c) = [] := by
  have hreg (reg : Byte) (hmem : reg ∈ windowRegs c) (val : Word) :
      (registerWrites reg val).filter (isPixel c) = [] :=
    filter_isPixel_registerWrites (ne_of_mem_of_not_mem hmem (ramData_notMem_windowRegs h)) val
  have hsel : [L2Item.sel (c.regmap.ramData.setWidth 16)].filter (isPixel c) = [] := rfl
  unfold windowWrites
  split
  case isTrue hpacked =>
    simp (disch := simp [windowRegs, hpacked]) only [List.filter_append, hreg, hsel, List.append_nil]
  case isFalse hpacked =>
    simp (disch := simp [windowRegs, hpacked]) only [List.filter_append, hreg, hsel, List.append_nil]

/-! ## The command -/

/-- What a fill adds to the trace: its window, by the bounds it leaves, and its pixels (43_geometry R182). -/
theorem exec_fastfill_trace {s t : State} {x1 y1 x2 y2 color : Word}
    (h : exec (.fastfill x1 y1 x2 y2 color) s = .next t) :
    t.trace = s.trace ++ (windowEvents s.cfg t.hs t.he t.vs t.ve ++
      fillEvents s.cfg color (side x1 x2 * side y1 y2)) := by
  obtain ⟨-, h⟩ := whenReady_next.1 h
  obtain ⟨-, h⟩ := whenInRange_next.1 h
  cases h
  rw [fillBody_eq, ← fillCount_sorted]
  rfl

/-- A fill is accepted only in `Ready` and in range (43_geometry R174, 60_exceptions R225). -/
theorem exec_fastfill_accepted {s t : State} {x1 y1 x2 y2 color : Word}
    (h : exec (.fastfill x1 y1 x2 y2 color) s = .next t) :
    s.life = .ready ∧ inRange s.cfg s.orient x1 y1 = true ∧ inRange s.cfg s.orient x2 y2 = true := by
  obtain ⟨hl, h⟩ := whenReady_next.1 h
  obtain ⟨hr, -⟩ := whenInRange_next.1 h
  exact ⟨hl, Bool.and_eq_true_iff.1 hr⟩

theorem length_flatten_replicate_dataItems (v : Word) (n : Nat) :
    (List.replicate n (dataItems v)).flatten.length = 2 * n := by
  simp [dataItems, Nat.mul_comm]

/-! ## The statement -/

/-- Settles O42: a fill sends its window, whose last byte is the RAM-data command, and then its pixels; both
readings go on from there, and the window's registers are not the RAM data port. -/
theorem fastfillCountLaw : Obligations.FastfillCountLaw := by
  intro s t x1 y1 x2 y2 color hinv hwhole hvalid h
  obtain ⟨hl, h1, h2⟩ := exec_fastfill_accepted h
  have hsends := (sends_windowEvents s.cfg t.hs t.he t.vs t.ve).append
    (sends_fillEvents s.cfg color (side x1 x2 * side y1 y2))
  have hwrites := (writes_windowItems s.cfg t.hs t.he t.vs t.ve).followed
    (l2_data_replicate s.cfg _ color (side x1 x2 * side y1 y2))
  refine ⟨⟨_, ?_, rfl, ?_⟩, ?_, sides_bound h1 h2⟩
  · rw [exec_fastfill_trace h]
    exact l2_trace_append hinv hwhole hl hsends hwrites
  · rw [List.filter_append, filter_isPixel_windowWrites hvalid, List.nil_append]
    exact List.filter_replicate_of_pos (beq_self_eq_true _)
  · obtain ⟨high, hcommand⟩ := commandItems_setWidth s.cfg s.cfg.regmap.ramData
    refine ⟨boundItems s.cfg t.hs t.he t.vs t.ve ++ high, _, ?_, rfl,
      length_flatten_replicate_dataItems color _⟩
    rw [exec_fastfill_trace h, l1_trace_append hinv hl hsends, hcommand]
    simp only [List.append_assoc]
    rfl

end Sys2Proof.Machine

/-! SUPPORT. The two commands of the lifecycle that send no event (44_lifecycle R207, R208): the check of `LIFE`
when it fails, what each command answers, and what a busy step leaves of the command list. -/

namespace Sys2Proof.Machine

/-- Outside `Ready` a command that requires it is refused by the value of `LIFE` (60_exceptions R225). -/
@[simp] theorem whenReady_of_not_ready {s : State} (h : s.life ≠ .ready) (r : Result) :
    whenReady s r = .refused (.outOfLifecycle s.life) := by
  simp [whenReady, h]

/-- Past the check of `LIFE` nothing of `SETINTENSITY` is left, its level included. -/
theorem exec_setintensity (level : Byte) (s : State) : exec (.setintensity level) s = whenReady s (.next s) := rfl

/-- `WHOAMI` has no check: it answers with one more response. -/
theorem exec_whoami (s : State) : exec .whoami s = .next (s.respond (.identity s.cfg.idString)) := rfl

/-- A busy block takes no word: acceptance needs `BUSY` at 0 (10_state R26). -/
@[simp] theorem stepBusy_cmds (s : State) : (stepBusy s).cmds = s.cmds := by rw [stepBusy_frame]

/-! ## The statements -/

/-- Settles O28: the check of `LIFE` is all that `SETINTENSITY` does. -/
theorem setintensityHasNoEffect : Obligations.SetintensityHasNoEffect := by
  intro s level
  refine ⟨Laws.EncodesOpcode.setintensity level, fun hready => ?_, fun hnot => ?_⟩
  · rw [exec_setintensity, whenReady_of_ready hready]
  · rw [exec_setintensity, whenReady_of_not_ready hnot]

/-- Settles O29: `WHOAMI` responds whatever `LIFE` is, and a busy step is a pass of the sampler instead. -/
theorem whoamiPresentsTheIdString : Obligations.WhoamiPresentsTheIdString := by
  refine ⟨Laws.EncodesOpcode.whoami, exec_whoami, fun s hbusy => ?_⟩
  exact ⟨stepBusy s, step_busy hbusy, stepBusy_cmds s⟩

end Sys2Proof.Machine

/-! SUPPORT. The word of a command and of a line of assembly (30_encoding R81 to R83, R88): every operand comes
back from the field it was put into. -/

namespace Sys2Proof.Machine

/-! ## Slices of a field -/

/-- The bytes of a word weigh 256 and 1 (20_memory R53). -/
theorem toNat_append_byte (hi lo : Byte) : (hi ++ lo : Word).toNat = 256 * hi.toNat + lo.toNat := by
  have hlo : lo.toNat < 2 ^ 8 := lo.isLt
  rw [BitVec.toNat_append, ← Nat.shiftLeft_add_eq_or_of_lt hlo, Nat.shiftLeft_eq]
  omega

@[simp] theorem extractLsb'_append_high (hi lo : Byte) : (hi ++ lo : Word).extractLsb' 8 8 = hi := by
  have hlo := lo.isLt
  have hhi := hi.isLt
  apply BitVec.eq_of_toNat_eq
  rw [BitVec.extractLsb'_toNat, toNat_append_byte, Nat.shiftRight_eq_div_pow]
  omega

@[simp] theorem extractLsb'_append_low (hi lo : Byte) : (hi ++ lo : Word).extractLsb' 0 8 = lo := by
  have hlo := lo.isLt
  apply BitVec.eq_of_toNat_eq
  rw [BitVec.extractLsb'_toNat, toNat_append_byte, Nat.shiftRight_zero]
  omega

/-- A value put into a wider field is the low part of the field. -/
theorem extractLsb'_setWidth {n m : Nat} (v : BitVec n) (h : n ≤ m) :
    (v.setWidth m).extractLsb' 0 n = v := by
  apply BitVec.eq_of_getLsbD_eq
  intro i hi
  simp [hi, show i < m by omega]

/-- The low part of a number written into a field is that number in the smaller width. -/
theorem extractLsb'_ofNat {n m : Nat} (a : Nat) (h : n ≤ m) :
    (BitVec.ofNat m a).extractLsb' 0 n = BitVec.ofNat n a := by
  apply BitVec.eq_of_toNat_eq
  simp [Nat.mod_mod_of_dvd a (Nat.pow_dvd_pow 2 h)]

/-! ## Decoding what was encoded -/

/-- A command's word carries the opcode of its row. -/
theorem encode_op (i : Instr) : (encode i).op = i.mnemonic.opcode := by
  cases i <;> exact make_op ..

/-- Each operand is read back from the field `encode` wrote it to. -/
theorem build_encode (i : Instr) : i.mnemonic.build (encode i) = i := by
  cases i <;> simp [encode, Instr.mnemonic, Mnemonic.build, extractLsb'_setWidth]

theorem decode_encode (i : Instr) : decode (encode i) = .ok i := by
  rw [decode_of_op (encode_op i), build_encode]

/-! ## Lines of assembly -/

theorem countOk_iff (l : AsmLine) : l.countOk = true ↔ l.operands.length = l.op.widths.length := by
  simp [AsmLine.countOk]

/-- The mnemonic of an operation; the two pseudo-instructions of R88 are `SETBACKLIGHT`. -/
def mnemonicOf : AsmOp → Mnemonic
  | .cmd m => m
  | .sleep => .setbacklight
  | .wake => .setbacklight

/-- The command of a line is a command of the line's mnemonic. -/
theorem lineCommand_mnemonic {op : AsmOp} {xs : List Nat} {i : Instr} (h : lineCommand op xs = some i) :
    i.mnemonic = mnemonicOf op := by
  unfold lineCommand at h
  split at h <;> cases h <;> rfl

/-- The word of a line decodes to the line's command: an operand comes back from the field it was written to,
cut to the slice the command reads. -/
theorem decode_fieldsWord {op : AsmOp} {xs : List Nat} {i : Instr} (h : lineCommand op xs = some i) :
    decode (fieldsWord op xs) = .ok i := by
  unfold lineCommand at h
  split at h <;> cases h <;>
    exact (decode_of_op (make_op ..)).trans (by simp [Mnemonic.build, extractLsb'_ofNat])

/-- A line with the number of operands of R82 stands for a command. -/
theorem exists_lineCommand : ∀ {op : AsmOp} {xs : List Nat}, xs.length = op.widths.length →
    ∃ i, lineCommand op xs = some i
  | .cmd .wrcmd, [_], _ | .cmd .wrdata, [_], _ | .cmd .wrcmddata, [_, _, _], _ | .cmd .wrdata88, [_, _], _
  | .cmd .wrreg, [_, _], _ | .cmd .setorient, [_], _ | .cmd .orientxy, [_, _], _
  | .cmd .setwindow, [_, _, _, _], _ | .cmd .closewindow, [], _ | .cmd .setpoint, [_, _, _], _
  | .cmd .fastfill, [_, _, _, _, _], _ | .cmd .begin, [], _ | .cmd .setbacklight, [_], _
  | .cmd .setintensity, [_], _ | .cmd .whoami, [], _ | .cmd .readtouch, [], _ | .sleep, [], _
  | .wake, [], _ => ⟨_, rfl⟩

/-- The operands of a command as a line writes them. -/
def operandsOfInstr : Instr → List Nat
  | .wrcmd cmd => [cmd.toNat]
  | .wrdata val => [val.toNat]
  | .wrcmddata cmd hi lo => [cmd.toNat, hi.toNat, lo.toNat]
  | .wrdata88 hi lo => [hi.toNat, lo.toNat]
  | .wrreg reg val => [reg.toNat, val.toNat]
  | .setorient o => [o.toNat]
  | .orientxy x y => [x.toNat, y.toNat]
  | .setwindow x1 y1 x2 y2 => [x1.toNat, y1.toNat, x2.toNat, y2.toNat]
  | .closewindow => []
  | .setpoint x y color => [x.toNat, y.toNat, color.toNat]
  | .fastfill x1 y1 x2 y2 color => [x1.toNat, y1.toNat, x2.toNat, y2.toNat, color.toNat]
  | .begin => []
  | .setbacklight flag => [flag.toNat]
  | .setintensity level => [level.toNat]
  | .whoami => []
  | .readtouch => []

/-- The line that writes a command's operands as they are. -/
def lineOf (i : Instr) : AsmLine := ⟨.cmd i.mnemonic, operandsOfInstr i⟩

theorem lineCommand_lineOf (i : Instr) : lineCommand (.cmd i.mnemonic) (operandsOfInstr i) = some i := by
  cases i <;> simp [Instr.mnemonic, operandsOfInstr, lineCommand]

theorem fieldsWord_lineOf (i : Instr) : fieldsWord (.cmd i.mnemonic) (operandsOfInstr i) = encode i := by
  cases i <;> simp [Instr.mnemonic, operandsOfInstr, fieldsWord, encode, Mnemonic.opcode]

/-- An operand is below the power of its own width, so it fits the field it is written to. -/
theorem wellFormed_lineOf (i : Instr) : (lineOf i).wellFormed = true := by
  cases i <;>
    simp [lineOf, operandsOfInstr, Instr.mnemonic, AsmLine.wellFormed, AsmLine.countOk, AsmLine.rangesOk,
      AsmOp.widths, BitVec.toNat_lt_twoPow_of_le, -Nat.reducePow]

/-! ## The statements -/

/-- Settles O1: the word's opcode selects the command's row, and the row reads the operands back. -/
theorem decodeEncodeRoundTrip : Obligations.DecodeEncodeRoundTrip := decode_encode

/-- Settles O4: each word's opcode selects its row, and the row's fields are the operands. -/
theorem writtenOutWordsDecode : Obligations.WrittenOutWordsDecode := by
  refine ⟨?_, ?_, ?_, ?_, ?_⟩ <;> decide

/-- Settles O5: the number of operands alone decides that a line stands for a command, and the word of such a
line decodes to it; a command's own line writes its operands as they are. -/
theorem assemblyLinesHaveWords : Obligations.AssemblyLinesHaveWords := by
  refine ⟨fun l hwf => ?_, fun l hwf => ?_, fun i => ?_, fun m xs i h => lineCommand_mnemonic h⟩
  · obtain ⟨hcount, -⟩ := Bool.and_eq_true_iff.1 hwf
    obtain ⟨i, hi⟩ := exists_lineCommand ((countOk_iff l).1 hcount)
    exact ⟨_, i, if_pos hwf, hi, decode_fieldsWord hi⟩
  · simp [assemble, hwf]
  · exact ⟨operandsOfInstr i, wellFormed_lineOf i, lineCommand_lineOf i,
      (if_pos (wellFormed_lineOf i)).trans (congrArg some (fieldsWord_lineOf i))⟩

end Sys2Proof.Machine

/-! SUPPORT. Acceptance (60_exceptions R222) and the step: which checks a command meets, what a step answers, and
what a command does to the registers that `Ran` leaves open. -/

namespace Sys2Proof.Machine

/-! ## The checks of acceptance -/

/-- A command answers what its checks say (60_exceptions R222). -/
def AnswersChecks (i : Instr) (s : State) : Prop :=
  (refusalOf i s = none → ∃ t, exec i s = .next t) ∧ ∀ r, refusalOf i s = some r → exec i s = .refused r

/-- A command that is checked for `Ready` and then for its coordinates. -/
theorem answersChecks_of_whenReady {i : Instr} {s t : State}
    (he : exec i s = whenReady s (whenInRange (coordinatesOk s i) (.next t)))
    (hl : lifeAccepts s.life i = (s.life == .ready)) (ht : touchAccepts s.cfg i = true) :
    AnswersChecks i s := by
  unfold AnswersChecks refusalOf
  rw [he, hl, ht]
  by_cases hready : s.life = .ready
  · cases hc : coordinatesOk s i <;> simp [hready]
  · simp [hready]

theorem answersChecks_begin (s : State) : AnswersChecks .begin s := by
  by_cases h : s.life = .uninit <;>
    simp [AnswersChecks, refusalOf, lifeAccepts, touchAccepts, coordinatesOk, exec, execBegin, h]

theorem answersChecks_whoami (s : State) : AnswersChecks .whoami s :=
  ⟨fun _ => ⟨_, rfl⟩, fun _ h => nomatch h⟩

theorem answersChecks_readtouch (s : State) : AnswersChecks .readtouch s := by
  by_cases hl : s.life = .ready <;> cases ht : s.cfg.hasTouch <;>
    simp [AnswersChecks, refusalOf, lifeAccepts, touchAccepts, coordinatesOk, exec, execReadtouch, hl, ht]

/-- Every command but the three with a life cycle or a sampler of their own has the two checks. -/
theorem answersChecks (i : Instr) (s : State) : AnswersChecks i s := by
  cases i with
  | begin => exact answersChecks_begin s
  | whoami => exact answersChecks_whoami s
  | readtouch => exact answersChecks_readtouch s
  | _ => exact answersChecks_of_whenReady rfl rfl rfl

/-- A command other than `BEGIN` and `WHOAMI` is accepted only in `Ready` (60_exceptions R225). -/
theorem ready_of_exec {i : Instr} {s t : State} (h : exec i s = .next t) (hb : i ≠ .begin) (hw : i ≠ .whoami) :
    s.life = .ready := by
  by_contra hl
  have hr : refusalOf i s = some (.outOfLifecycle s.life) := by
    cases i <;> simp_all [refusalOf, lifeAccepts]
  rw [(answersChecks i s).2 _ hr] at h
  cases h

theorem exec_begin_next {s t : State} : exec .begin s = .next t ↔ s.life = .uninit ∧ t = beginBody s := by
  constructor
  · intro h
    simp only [exec, execBegin] at h
    split at h <;> cases h
    exact ⟨‹_›, rfl⟩
  · rintro ⟨hl, rfl⟩
    exact if_pos hl

theorem exec_readtouch_next {s t : State} :
    exec .readtouch s = .next t ↔ s.life = .ready ∧ s.cfg.hasTouch = true ∧ t = touchPass 0 s := by
  refine whenReady_next.trans (and_congr_right fun _ => ?_)
  cases s.cfg.hasTouch with
  | false => simp
  | true => simp [eq_comm (a := t)]

/-! ## What a command does to the other registers -/

/-- What a command that samples no touch does to the registers that `Ran` leaves open. -/
structure Settles (i : Instr) (s t : State) : Prop where
  sampling : t.sampling = s.sampling
  orient : t.orient = orientAfter s.orient i
  count : t.count = s.count ∨ t.count = 0
  seqPc : t.seqPc = s.seqPc ∨ t.seqPc = s.cfg.initSeq.length
  responses : ∃ rs, t.responses = s.responses ++ rs ∧ ∀ x y z, Response.touch x y z ∉ rs

theorem Settles.of_unchanged {i : Instr} {s t : State} (hs : t.sampling = s.sampling)
    (ho : t.orient = orientAfter s.orient i) (hc : t.count = s.count) (hq : t.seqPc = s.seqPc)
    (hr : t.responses = s.responses) : Settles i s t :=
  ⟨hs, ho, .inl hc, .inl hq, [], by simp [hr], by simp⟩

/-- Once for all commands but `READTOUCH`. -/
theorem exec_settles {i : Instr} {s t : State} (h : exec i s = .next t) (hi : i ≠ .readtouch) :
    Settles i s t := by
  cases i with
  | wrcmd | wrdata | wrcmddata | wrdata88 | wrreg | setorient | closewindow | setbacklight | setintensity =>
    obtain ⟨-, h⟩ := whenReady_next.1 h
    cases h
    exact .of_unchanged rfl rfl rfl rfl rfl
  | setwindow | setpoint =>
    obtain ⟨-, h⟩ := whenReady_next.1 h
    obtain ⟨-, h⟩ := whenInRange_next.1 h
    cases h
    exact .of_unchanged rfl rfl rfl rfl rfl
  | orientxy x y =>
    obtain ⟨-, h⟩ := whenReady_next.1 h
    obtain ⟨-, h⟩ := whenInRange_next.1 h
    cases h
    exact ⟨rfl, rfl, .inl rfl, .inl rfl, _, rfl, by simp⟩
  | fastfill x1 y1 x2 y2 color =>
    obtain ⟨-, h⟩ := whenReady_next.1 h
    obtain ⟨-, h⟩ := whenInRange_next.1 h
    cases h
    rw [fillBody_eq]
    exact ⟨rfl, rfl, .inr rfl, .inl rfl, [], by simp, by simp⟩
  | begin =>
    obtain ⟨-, rfl⟩ := exec_begin_next.1 h
    rw [beginBody_eq]
    exact ⟨rfl, rfl, .inr rfl, .inr rfl, [], by simp, by simp⟩
  | whoami =>
    cases h
    exact ⟨rfl, rfl, .inl rfl, .inl rfl, _, rfl, by simp⟩
  | readtouch => exact absurd rfl hi

/-- A pass of the sampler presents at most one value. -/
theorem touchPass_responses (n : Nat) (s : State) : ∃ rs, (touchPass n s).responses = s.responses ++ rs := by
  unfold touchPass
  split
  · exact ⟨_, rfl⟩
  · dsimp only
    split
    · rw [measure_state]; exact ⟨_, rfl⟩
    · rw [measure_state]; exact ⟨[], by simp⟩

theorem stepBusy_responses (s : State) : ∃ rs, (stepBusy s).responses = s.responses ++ rs := by
  unfold stepBusy
  split
  · exact touchPass_responses _ s
  · exact ⟨[], by simp⟩

theorem exec_responses {i : Instr} {s t : State} (h : exec i s = .next t) :
    ∃ rs, t.responses = s.responses ++ rs := by
  by_cases hi : i = .readtouch
  · subst hi
    obtain ⟨-, -, rfl⟩ := exec_readtouch_next.1 h
    exact touchPass_responses 0 s
  · obtain ⟨rs, hrs, -⟩ := (exec_settles h hi).responses
    exact ⟨rs, hrs⟩

/-! ## The step -/

/-- With no command presented the block idles (60_exceptions R229). -/
theorem step_idle {s : State} (hb : s.busy = false) (hc : s.cmds = []) : step s = .next s := by
  have h : stepBlock s.cfg s.toInputs s.toBlock = .next (s.toBlock, s.toInputs) := by
    simp [stepBlock, hb, hc]
  simp only [step, h, build_self]

theorem step_next_iff (s t : State) :
    step s = .next t ↔
      t.cfg = s.cfg ∧ stepBlock s.cfg s.toInputs s.toBlock = .next (t.toBlock, t.toInputs) := by
  refine ⟨step_next, fun ⟨hc, h⟩ => ?_⟩
  simp only [step, h, build_of_cfg_eq hc]

theorem step_refused_iff (s : State) (r : Refusal) :
    step s = .refused r ↔ stepBlock s.cfg s.toInputs s.toBlock = .refused r := by
  unfold step
  split <;> simp_all

/-- The events a step appends: those of the command it accepts, if it accepts one (10_state R29). -/
theorem step_appends {s t : State} (h : step s = .next t) :
    ∃ evs, t.trace = s.trace ++ evs ∧ t.pins = evs.foldl (pinsAfter s.cfg) s.pins ∧
      t.out = evs.foldl (outAfter s.cfg) s.out ∧ ∃ rs, t.responses = s.responses ++ rs := by
  obtain ⟨-, rfl⟩ | ⟨-, -, rfl⟩ | ⟨w, rest, i, u, -, -, -, hexec, rfl⟩ := step_cases h
  · have hr := stepBusy_responses s
    rw [stepBusy_frame] at hr ⊢
    exact ⟨[], by simp, rfl, rfl, hr⟩
  · exact ⟨[], by simp, rfl, rfl, [], by simp⟩
  · have hran := exec_ran hexec
    obtain ⟨rs, hrs⟩ := exec_responses hexec
    exact ⟨_, hran.trace, hran.pins, hran.out, rs, hrs⟩

/-! ## The statements -/

/-- Settles O8: three commands have checks of their own, the others are checked for `Ready` and then for their
coordinates. -/
theorem commandsAreAcceptedExactly : Obligations.CommandsAreAcceptedExactly := answersChecks

/-- Settles O6: acceptance latches the fields, and the step answers what the command answers. -/
theorem stepRunsTheDecodedCommand : Obligations.StepRunsTheDecodedCommand :=
  fun _ _ _ _ hb hc hd => step_command hb hc hd

/-- Settles O7: without a word the step is idle, and a busy step is at most a pass of the sampler. -/
theorem stepsWithoutAcceptance : Obligations.StepsWithoutAcceptance :=
  ⟨fun _ hb hc => step_idle hb hc, fun s hb => ⟨stepBusy s, step_busy hb, stepBusy_frame s⟩⟩

/-- Settles O36: a step appends the events of the command it accepts or none, and is `stepBlock` on the block and
its inputs. -/
theorem stepsAppendToTheTrace : Obligations.StepsAppendToTheTrace :=
  ⟨fun _ _ => step_appends, fun _ _ _ h => (exec_ran h).cfg, step_next_iff, step_refused_iff⟩

/-- Settles O37: `commandEvents` reads the configuration and the orientation alone. -/
theorem eventsDoNotDependOnHistory : Obligations.EventsDoNotDependOnHistory := by
  intro i s u s' u' hcfg horient hs hu
  refine ⟨commandEvents s.cfg s.orient i, (exec_ran hs).trace, ?_⟩
  rw [(exec_ran hu).trace, hcfg, horient]

/-- Settles O59: the events of an accepted command are what it appends, and a part of them from the start is what
a reset leaves. -/
theorem resetAbandonsTheCommand : Obligations.ResetAbandonsTheCommand := by
  intro i k s t h
  have hevents : eventsOf i s = commandEvents s.cfg s.orient i := by
    simp only [eventsOf, h, (exec_ran h).trace, List.drop_left]
  have htrace := (exec_ran h).trace
  refine ⟨?_, ?_, rfl⟩
  · rw [resetDuring, hevents, htrace]
    exact List.prefix_append_right_inj _ |>.2 (List.take_prefix _ _)
  · rw [resetDuring, hevents, htrace, List.length_take, List.length_append, Nat.add_sub_cancel_left]

end Sys2Proof.Machine

/-! SUPPORT. What every step keeps of the life cycle, the handshake and the counters (44_lifecycle R201, 10_state
R26, 43_geometry R182), and the run of a host that keeps its contract (70_reset_and_hazards R253). -/

namespace Sys2Proof.Machine

/-! ## The life cycle -/

/-- Only `BEGIN` configures the pins (20_memory R64). -/
theorem cfg_notMem_commandEvents (c : Cfg) (o : BitVec 2) {i : Instr} (h : i ≠ .begin) :
    Event.cfg ∉ commandEvents c o i := by
  cases i <;> simp_all [commandEvents]

@[simp] theorem lifeAfter_begin (l : Life) : lifeAfter .begin l = .ready := rfl

theorem lifeAfter_of_ne {i : Instr} (h : i ≠ .begin) (l : Life) : lifeAfter i l = l := if_neg h

/-- In each state of the life cycle that is seen, an accepted command leaves the pins configured exactly in
`Ready`. -/
theorem configured_of_exec {i : Instr} {s t : State} (h : exec i s = .next t)
    (hs : s.pinsConfigured = (s.life == .ready)) : t.pinsConfigured = (t.life == .ready) := by
  have hran := exec_ran h
  by_cases hi : i = .begin
  · subst hi
    obtain ⟨-, rfl⟩ := exec_begin_next.1 h
    rw [beginBody_eq]
    rfl
  · rw [hran.configured, configured_foldl_of_no_cfg _ (cfg_notMem_commandEvents _ _ hi), hran.life,
      lifeAfter_of_ne hi, hs]

/-- A sample is in progress after a command only if the command was `READTOUCH`. -/
theorem sampler_of_exec {i : Instr} {s t : State} (h : exec i s = .next t) (hs : s.sampling = none)
    (ht : t.sampling.isSome) : s.life = .ready ∧ s.cfg.hasTouch = true := by
  by_cases hi : i = .readtouch
  · subst hi
    obtain ⟨hl, htouch, -⟩ := exec_readtouch_next.1 h
    exact ⟨hl, htouch⟩
  · rw [(exec_settles h hi).sampling, hs] at ht
    cases ht

/-- A busy block at work on a sample goes on with it, and `BUSY` follows the sample. -/
theorem lifeInv_stepBusy {s : State} (h : LifeInv s) (hb : s.busy = true) : LifeInv (stepBusy s) := by
  obtain ⟨k, hk⟩ := Option.isSome_iff_exists.1 (h.busy ▸ hb)
  obtain ⟨hready, htouch⟩ := h.sampler (by simp [hk])
  have hbusy : stepBusy s = (touchPass k s).complete := by simp only [stepBusy, hk]
  refine ⟨?_, ?_, by rw [hbusy]; rfl, fun _ => ?_⟩
  · rw [stepBusy_frame]; exact h.settled
  · rw [stepBusy_frame]; exact h.configured
  · rw [stepBusy_frame]; exact ⟨hready, htouch⟩

theorem lifeInv_command {i : Instr} {s u : State} {w : CmdWord} {rest : List CmdWord} (h : LifeInv s)
    (hb : s.busy = false) (he : exec i (s.accept w rest) = .next u) : LifeInv u.complete := by
  have hran := exec_ran he
  have hsampling : s.sampling = none := by simpa [hb] using h.busy
  have hconfigured := configured_of_exec he h.configured
  refine ⟨?_, hconfigured, rfl, fun hu => ?_⟩
  · rw [State.complete_life, hran.life]
    by_cases hi : i = .begin
    · simp [hi]
    · rw [lifeAfter_of_ne hi]; exact h.settled
  · obtain ⟨hl, htouch⟩ := sampler_of_exec he hsampling hu
    have hi : i ≠ .begin := by
      rintro rfl
      rw [(exec_begin_next.1 he).1] at hl
      cases hl
    rw [State.complete_life, State.complete_cfg, hran.life, hran.cfg, lifeAfter_of_ne hi]
    exact ⟨hl, htouch⟩

/-! ## The counters -/

theorem countersInv_command {i : Instr} {s u : State} {w : CmdWord} {rest : List CmdWord} (h : CountersInv s)
    (he : exec i (s.accept w rest) = .next u) : CountersInv u.complete := by
  obtain ⟨hcount, hseq⟩ := h
  have hcfg : u.cfg = s.cfg := (exec_ran he).cfg
  unfold CountersInv
  rw [State.complete_count, State.complete_seqPc, State.complete_cfg, hcfg]
  by_cases hi : i = .readtouch
  · subst hi
    obtain ⟨-, -, rfl⟩ := exec_readtouch_next.1 he
    rw [touchPass_frame]
    exact ⟨hcount, hseq⟩
  · have hset := exec_settles he hi
    refine ⟨hset.count.elim (fun h => h.trans hcount) id, ?_⟩
    rcases hset.seqPc with h | h
    · exact h ▸ hseq
    · exact h ▸ le_refl _

/-! ## A host that keeps its contract -/

/-- `LIFE` for a host that has issued `BEGIN` or not yet. -/
def lifeOf (begun : Bool) : Life := if begun then .ready else .uninit

/-- The next command of a host that keeps R253 and R268 is acceptable, and the rest is kept after it. -/
theorem lifecycleKept_cons {begun : Bool} {i : Instr} {is : List Instr}
    (h : lifecycleKept begun (i :: is) = true) :
    lifeAccepts (lifeOf begun) i = true ∧
      ∃ begun', lifeAfter i (lifeOf begun) = lifeOf begun' ∧ lifecycleKept begun' is = true := by
  cases begun with
  | false =>
    cases i with
    | begin => exact ⟨rfl, true, rfl, h⟩
    | whoami => exact ⟨rfl, false, rfl, h⟩
    | _ => cases h
  | true =>
    cases i with
    | begin => cases h
    | _ => exact ⟨rfl, true, rfl, h⟩

theorem refusalOf_eq_none {i : Instr} {s : State} (hl : lifeAccepts s.life i = true)
    (ht : touchAccepts s.cfg i = true) (hc : coordinatesOk s i = true) : refusalOf i s = none := by
  simp [refusalOf, hl, ht, hc]

/-- The range check reads the configuration and the orientation alone. -/
theorem coordinatesOk_congr {s u : State} (hc : s.cfg = u.cfg) (ho : s.orient = u.orient) (i : Instr) :
    coordinatesOk s i = coordinatesOk u i := by
  cases i <;> simp only [coordinatesOk, hc, ho]

theorem touchAccepts_of_ne {i : Instr} (h : i ≠ .readtouch) (c : Cfg) : touchAccepts c i = true := by
  cases i with
  | readtouch => exact absurd rfl h
  | _ => rfl

/-- One command of a host that keeps its contract: the step runs it, and the contract is kept from there. -/
theorem step_of_contract {begun : Bool} {i : Instr} {is : List Instr} {s : State} (hb : s.busy = false)
    (hs : s.sampling = none) (hl : s.life = lifeOf begun) (hc : s.cmds = (i :: is).map encode)
    (hlife : lifecycleKept begun (i :: is) = true) (hcoord : coordinatesKept s.cfg s.orient (i :: is) = true)
    (hi : i ≠ .readtouch) :
    ∃ t begun', step s = .next t ∧ t.busy = false ∧ t.sampling = none ∧ t.life = lifeOf begun' ∧
      t.cmds = is.map encode ∧ lifecycleKept begun' is = true ∧ coordinatesKept t.cfg t.orient is = true := by
  obtain ⟨haccept, begun', hafter, hkept⟩ := lifecycleKept_cons hlife
  obtain ⟨hrange, hcoord⟩ := Bool.and_eq_true_iff.1 hcoord
  have hok : coordinatesOk (s.accept (encode i) (is.map encode)) i = true :=
    (coordinatesOk_congr rfl rfl i).trans hrange
  obtain ⟨u, hu⟩ := (answersChecks i (s.accept (encode i) (is.map encode))).1
    (refusalOf_eq_none (by rw [State.accept_life, hl]; exact haccept) (touchAccepts_of_ne hi _) hok)
  have hran := exec_ran hu
  have hset := exec_settles hu hi
  refine ⟨u.complete, begun', (step_command hb hc (decode_encode i)).1 u hu, ?_, ?_, ?_, ?_, hkept, ?_⟩
  · rw [State.complete_busy, hset.sampling, State.accept_sampling, hs]; rfl
  · rw [State.complete_sampling, hset.sampling, State.accept_sampling, hs]
  · rw [State.complete_life, hran.life, State.accept_life, hl, hafter]
  · rw [State.complete_cmds, hran.cmds, State.accept_cmds]
  · rw [State.complete_cfg, State.complete_orient, hran.cfg, hset.orient]; exact hcoord

theorem core_run_succ {s t : State} (h : step s = .next t) (n : Nat) :
    Host.Core.run Sys2Proof.core (n + 1) s = Host.Core.run Sys2Proof.core n t := by
  have h' : Sys2Proof.core.step s = .next t := h
  simp only [Host.Core.run, h']

theorem run_of_contract (is : List Instr) : ∀ (begun : Bool) (s : State), s.busy = false → s.sampling = none →
    s.life = lifeOf begun → s.cmds = is.map encode → lifecycleKept begun is = true →
    coordinatesKept s.cfg s.orient is = true → (∀ i ∈ is, i ≠ .readtouch) →
    ∃ t, Host.Core.run Sys2Proof.core is.length s = .next t ∧ t.cmds = [] ∧ t.busy = false := by
  induction is with
  | nil => exact fun _ s hb _ _ hc _ _ _ => ⟨s, rfl, hc, hb⟩
  | cons i is ih =>
    intro begun s hb hs hl hc hlife hcoord htouch
    obtain ⟨hi, htouch⟩ := List.forall_mem_cons.1 htouch
    obtain ⟨t, begun', hstep, hb, hs, hl, hc, hlife, hcoord⟩ := step_of_contract hb hs hl hc hlife hcoord hi
    rw [List.length_cons, core_run_succ hstep]
    exact ih begun' t hb hs hl hc hlife hcoord htouch

/-! ## The statements -/

/-- Settles O48: a busy step is a pass of the sampler, an idle one changes nothing, and an accepted command ends
in `Ready` or where it began. -/
theorem everyStepKeepsLifeInv : Obligations.EveryStepKeepsLifeInv := by
  intro s t h hstep
  obtain ⟨hb, rfl⟩ | ⟨-, -, rfl⟩ | ⟨w, rest, i, u, hb, -, -, he, rfl⟩ := step_cases hstep
  · exact lifeInv_stepBusy h hb
  · exact h
  · exact lifeInv_command h hb he

/-- Settles O30: of the accepted commands only `BEGIN` writes `LIFE`, and it is accepted only in `Uninit`. -/
theorem onlyBeginLeavesUninit : Obligations.OnlyBeginLeavesUninit := by
  intro s t _ hstep
  obtain ⟨-, rfl⟩ | ⟨-, -, rfl⟩ | ⟨w, rest, i, u, -, hc, hd, he, rfl⟩ := step_cases hstep
  · rw [stepBusy_frame]; exact .inl rfl
  · exact .inl rfl
  · have hlife : u.life = lifeAfter i s.life := (exec_ran he).life
    by_cases hi : i = .begin
    · subst hi
      exact .inr ⟨(exec_begin_next.1 he).1, hlife, w, rest, hc, hd⟩
    · exact .inl (hlife.trans (lifeAfter_of_ne hi _))

/-- Settles O52: a fill and `BEGIN` end with the counters at their last value, nothing else writes them. -/
theorem everyStepKeepsTheCounters : Obligations.EveryStepKeepsTheCounters := by
  intro s t h hstep
  obtain ⟨-, rfl⟩ | ⟨-, -, rfl⟩ | ⟨w, rest, i, u, -, -, -, he, rfl⟩ := step_cases hstep
  · rw [stepBusy_frame]; exact h
  · exact h
  · exact countersInv_command h he

/-- Settles O60: by induction over the commands, from a host that has not issued `BEGIN`. -/
theorem contractKeepingRunsAreAccepted : Obligations.ContractKeepingRunsAreAccepted :=
  fun is s hb hs hl hc hlife hcoord htouch => run_of_contract is false s hb hs hl hc hlife hcoord htouch

end Sys2Proof.Machine

/-! SUPPORT. The kinds of events that the procedures put on the pins (41_bus_protocol R137), and the commands of the
bus engine and the register encoder written out. -/

namespace Sys2Proof.Machine

/-! ## Events of the bus -/

/-- An event of the bus alone: CS, DC, WR or the data lines. -/
def Event.isBus : Event → Bool
  | .sig .cs _ => true
  | .sig .dc _ => true
  | .sig .wr _ => true
  | .data _ => true
  | _ => false

@[simp] theorem isBus_strobe (b : Byte) : (strobe b).all Event.isBus = true := rfl

@[simp] theorem isBus_cmdBytes (c : Cfg) (cmd : Word) : (cmdBytes c cmd).all Event.isBus = true := by
  unfold cmdBytes; cases c.cmdXfers <;> rfl

@[simp] theorem isBus_dataBytes (hi lo : Byte) : (dataBytes hi lo).all Event.isBus = true := rfl

@[simp] theorem isBus_commandWrite (c : Cfg) (cmd : Word) : (commandWrite c cmd).all Event.isBus = true := by
  simp [commandWrite, -List.all_eq_true, Event.isBus]

@[simp] theorem isBus_dataWrite (c : Cfg) (hi lo : Byte) : (dataWrite c hi lo).all Event.isBus = true := rfl

@[simp] theorem isBus_regWrite (c : Cfg) (reg : Byte) (val : Word) :
    (regWrite c reg val).all Event.isBus = true := by
  simp [regWrite, commandDataWrite, -List.all_eq_true, Event.isBus]

@[simp] theorem isBus_commandDataWrite (c : Cfg) (cmd : Word) (hi lo : Byte) :
    (commandDataWrite c cmd hi lo).all Event.isBus = true := by
  simp [commandDataWrite, -List.all_eq_true, Event.isBus]

@[simp] theorem isBus_windowEvents (c : Cfg) (hs he vs ve : Word) :
    (windowEvents c hs he vs ve).all Event.isBus = true := by
  unfold windowEvents
  split <;> simp [-List.all_eq_true]

@[simp] theorem isBus_pointEvents (c : Cfg) (px py color : Word) :
    (pointEvents c px py color).all Event.isBus = true := by
  simp [pointEvents, -List.all_eq_true]

theorem isBus_fillLoop {px : List Event} (h : px.all Event.isBus = true) (n : Nat) :
    (fillLoop px n).all Event.isBus = true := by
  induction n with
  | zero => rfl
  | succ n ih => rw [fillLoop, List.all_append, h, ih]; rfl

@[simp] theorem isBus_fillEvents (c : Cfg) (color : Word) (n : Nat) :
    (fillEvents c color n).all Event.isBus = true := by
  rw [fillEvents_eq_dataBracket]
  split
  · have hpixels := isBus_fillLoop (isBus_dataBytes (hiByte color) (loByte color)) n
    simp [dataBracket, hpixels, -List.all_eq_true, Event.isBus]
  · exact isBus_fillLoop (by simp [dataBracket, -List.all_eq_true, Event.isBus]) n

@[simp] theorem isBus_rectEvents (c : Cfg) (o : BitVec 2) (x1 y1 x2 y2 : Word) :
    (rectEvents c o x1 y1 x2 y2).all Event.isBus = true := isBus_windowEvents ..

@[simp] theorem isBus_rectFillEvents (c : Cfg) (o : BitVec 2) (x1 y1 x2 y2 color : Word) :
    (rectFillEvents c o x1 y1 x2 y2 color).all Event.isBus = true := by
  simp [rectFillEvents, -List.all_eq_true]

/-- Every command but `BEGIN` moves the bus alone (20_memory R64, 41_bus_protocol R137 e, g). -/
theorem isBus_commandEvents (c : Cfg) (o : BitVec 2) {i : Instr} (h : i ≠ .begin) :
    (commandEvents c o i).all Event.isBus = true := by
  cases i with
  | begin => exact absurd rfl h
  | _ => simp [commandEvents, -List.all_eq_true]

/-! What events of the bus are not. -/

theorem Event.ne_cfg_of_isBus {e : Event} (h : e.isBus = true) : e ≠ .cfg := by
  rintro rfl; cases h

theorem Event.isWait_of_isBus : ∀ {e : Event}, e.isBus = true → e.isWait = false
  | .sig .., _ | .data _, _ => rfl

theorem Event.isSig_rd_of_isBus : ∀ {e : Event}, e.isBus = true → e.isSig .rd = false
  | .sig .cs _, _ | .sig .dc _, _ | .sig .wr _, _ | .data _, _ => rfl

theorem Event.isSig_rst_of_isBus : ∀ {e : Event}, e.isBus = true → e.isSig .rst = false
  | .sig .cs _, _ | .sig .dc _, _ | .sig .wr _, _ | .data _, _ => rfl

theorem Event.isSig_of_isWait (s : Signal) : ∀ {e : Event}, e.isWait = true → e.isSig s = false
  | .wait _, _ => rfl

theorem filter_isWait_of_isBus {evs : List Event} (h : evs.all Event.isBus = true) :
    evs.filter Event.isWait = [] :=
  List.filter_eq_nil_iff.2 fun e he => by
    rw [Event.isWait_of_isBus (List.all_eq_true.1 h e he)]; exact Bool.false_ne_true

theorem pinsAfter_rd_rst_of_isBus (c : Cfg) (p : Pins) : ∀ {e : Event}, e.isBus = true →
    (pinsAfter c p e).rd = p.rd ∧ (pinsAfter c p e).rst = p.rst
  | .sig .cs _, _ | .sig .dc _, _ | .sig .wr _, _ | .data _, _ => ⟨rfl, rfl⟩

/-- The bus does not move RD and RST. -/
theorem pins_rd_rst_of_isBus {evs : List Event} (h : evs.all Event.isBus = true) (c : Cfg) (p : Pins) :
    (evs.foldl (pinsAfter c) p).rd = p.rd ∧ (evs.foldl (pinsAfter c) p).rst = p.rst := by
  induction evs generalizing p with
  | nil => exact ⟨rfl, rfl⟩
  | cons e es ih =>
    obtain ⟨he, hes⟩ := Bool.and_eq_true_iff.1 h
    obtain ⟨hrd, hrst⟩ := ih hes (pinsAfter c p e)
    obtain ⟨herd, herst⟩ := pinsAfter_rd_rst_of_isBus c p he
    exact ⟨hrd.trans herd, hrst.trans herst⟩

/-! ## `BEGIN` -/

/-- The panel reset of `BEGIN` (44_lifecycle R200, R202). -/
def pulseEvents (c : Cfg) : List Event :=
  match c.resetMode with
  | .pulsed => resetPulse c
  | .hardwired => []

theorem beginEvents_eq (c : Cfg) :
    beginEvents c = .cfg :: (pulseEvents c ++ initEvents c ++
      rectFillEvents c 1 0 0 (lastX c 1) (lastY c 1) c.clearColor) := by
  unfold beginEvents pulseEvents
  cases c.resetMode <;> rfl

/-- A step of `INIT_SEQ` is a register write or a wait (30_encoding R98). -/
theorem mem_initEvents {c : Cfg} {e : Event} (h : e ∈ initEvents c) : e.isBus = true ∨ e.isWait = true := by
  obtain ⟨st, -, he⟩ := List.mem_flatMap.1 h
  cases st with
  | write reg val => exact .inl (List.all_eq_true.1 (isBus_regWrite c reg val) e he)
  | delay t => exact .inr (by rw [List.mem_singleton.1 he]; rfl)

/-- Not even `BEGIN` moves RD. -/
theorem isSig_rd_beginEvents (c : Cfg) : ∀ e ∈ beginEvents c, Event.isSig .rd e = false := by
  intro e he
  simp only [beginEvents_eq, List.mem_cons, List.mem_append] at he
  rcases he with rfl | (hpulse | hinit) | hfill
  · rfl
  · unfold pulseEvents resetPulse at hpulse
    split at hpulse <;> simp at hpulse
    rcases hpulse with rfl | rfl | rfl <;> rfl
  · rcases mem_initEvents hinit with hbus | hwait
    · exact Event.isSig_rd_of_isBus hbus
    · exact Event.isSig_of_isWait .rd hwait
  · exact Event.isSig_rd_of_isBus (List.all_eq_true.1 (isBus_rectFillEvents ..) e hfill)

/-! ## The commands of the bus engine, written out -/

/-- Performing events of the bus: the pins, the output registers and the trace change. -/
theorem perform_of_isBus (s : State) {evs : List Event} (h : evs.all Event.isBus = true) :
    s.perform evs = { s with
      pins := evs.foldl (pinsAfter s.cfg) s.pins
      out := evs.foldl (outAfter s.cfg) s.out
      trace := s.trace ++ evs } := by
  have hcfg : Event.cfg ∉ evs := fun hm => Event.ne_cfg_of_isBus (List.all_eq_true.1 h _ hm) rfl
  simp only [State.perform, configured_foldl_of_no_cfg evs hcfg]

/-- The bytes of a command: the high one is sent only with two transfers (30_encoding R90). -/
theorem cmdBytes_eq (c : Cfg) (cmd : Word) :
    cmdBytes c cmd = (if c.cmdXfers = .two then strobe (hiByte cmd) else []) ++ strobe (loByte cmd) := by
  unfold cmdBytes
  cases c.cmdXfers <;> rfl

@[simp] theorem hiByte_setWidth (reg : Byte) : hiByte (reg.setWidth 16) = 0 := by
  have hlt := reg.isLt
  apply BitVec.eq_of_toNat_eq
  rw [hiByte, BitVec.extractLsb'_toNat, BitVec.toNat_setWidth, Nat.shiftRight_eq_div_pow]
  change _ = 0
  omega

theorem exec_wrcmd {s : State} (hl : s.life = .ready) (cmd : Word) :
    exec (.wrcmd cmd) s = .next (s.perform (commandWrite s.cfg cmd)) := whenReady_of_ready hl _

theorem exec_wrdata {s : State} (hl : s.life = .ready) (val : Word) :
    exec (.wrdata val) s = .next (s.perform (dataWrite s.cfg (hiByte val) (loByte val))) :=
  whenReady_of_ready hl _

theorem exec_wrdata88 {s : State} (hl : s.life = .ready) (hi lo : Byte) :
    exec (.wrdata88 hi lo) s = .next (s.perform (dataWrite s.cfg hi lo)) := whenReady_of_ready hl _

theorem exec_wrcmddata {s : State} (hl : s.life = .ready) (cmd : Word) (hi lo : Byte) :
    exec (.wrcmddata cmd hi lo) s = .next (s.perform (commandDataWrite s.cfg cmd hi lo)) :=
  whenReady_of_ready hl _

theorem exec_wrreg {s : State} (hl : s.life = .ready) (reg : Byte) (val : Word) :
    exec (.wrreg reg val) s = .next (s.perform (regWrite s.cfg reg val)) := whenReady_of_ready hl _

theorem exec_setbacklight {s : State} (hl : s.life = .ready) (flag : BitVec 1) :
    exec (.setbacklight flag) s = .next (s.perform (regWrite s.cfg s.cfg.regmap.sleepMode
      (if flag = 1 then s.cfg.sleepOut else s.cfg.sleepIn))) := whenReady_of_ready hl _

/-! ## The statements -/

/-- Settles O38: every command but `BEGIN` moves the bus alone, and `BEGIN` moves RST, waits and configures, but
does not move RD. -/
theorem onlyBeginResetsAndWaits : Obligations.OnlyBeginResetsAndWaits := by
  intro i s t h
  refine ⟨_, (exec_ran h).trace, ?_, fun hi e he => ?_⟩
  · by_cases hi : i = .begin
    · subst hi
      exact isSig_rd_beginEvents s.cfg
    · exact fun e he => Event.isSig_rd_of_isBus (List.all_eq_true.1 (isBus_commandEvents _ _ hi) e he)
  · have hbus := List.all_eq_true.1 (isBus_commandEvents s.cfg s.orient hi) e he
    exact ⟨Event.ne_cfg_of_isBus hbus, Event.isSig_rst_of_isBus hbus, Event.isWait_of_isBus hbus⟩

/-- Settles O9: the command's bytes in one bracket, the high one only with two transfers. -/
theorem wrcmdSendsOneCommand : Obligations.WrcmdSendsOneCommand := by
  intro s cmd hl evs
  have hevs : evs = commandWrite s.cfg cmd := by
    simp only [evs, commandWrite, cmdBytes_eq, strobe, List.append_assoc]; rfl
  rw [exec_wrcmd hl, perform_of_isBus s (isBus_commandWrite ..), pins_commandWrite, ← hevs]
  rfl

/-- Settles O10: the word is split into the two bytes that `WRDATA88` is given. -/
theorem dataWordsGoHighByteFirst : Obligations.DataWordsGoHighByteFirst := by
  intro s hi lo hl evs t
  have ht : s.perform (dataWrite s.cfg hi lo) = t := by
    rw [perform_of_isBus s (isBus_dataWrite ..), pins_dataWrite]; rfl
  rw [exec_wrdata88 hl, exec_wrdata hl, hiByte, loByte, extractLsb'_append_high, extractLsb'_append_low, ht]
  exact ⟨rfl, rfl⟩

/-- Settles O11: the bytes of the command and of the word in one bracket, DC in between. -/
theorem wrcmddataIsOneBracket : Obligations.WrcmddataIsOneBracket := by
  intro s cmd hi lo hl evs
  have hevs : evs = commandDataWrite s.cfg cmd hi lo := by
    simp only [evs, commandDataWrite, cmdBytes_eq, strobe, List.append_assoc]; rfl
  rw [exec_wrcmddata hl, perform_of_isBus s (isBus_commandDataWrite ..), pins_commandDataWrite, ← hevs]
  rfl

/-- Settles O13: the index is a command whose high byte is 0. -/
theorem wrregWritesOneRegister : Obligations.WrregWritesOneRegister := by
  intro s reg val hl evs
  have hevs : evs = regWrite s.cfg reg val := by
    simp only [evs, regWrite, commandDataWrite, cmdBytes_eq, strobe, hiByte_setWidth, loByte_setWidth,
      List.append_assoc]
    rfl
  rw [exec_wrreg hl, perform_of_isBus s (isBus_regWrite ..), pins_regWrite, ← hevs]
  rfl

/-- Settles O14: both flags are one register write, which holds no wait. -/
theorem setbacklightWritesSleepMode : Obligations.SetbacklightWritesSleepMode := by
  intro s hl
  refine ⟨rfl, rfl, fun flag => ⟨_, exec_setbacklight hl flag, ?_, ?_⟩⟩
  · rw [perform_of_isBus s (isBus_regWrite ..)]
  · rw [State.perform_trace, List.filter_append, filter_isWait_of_isBus (isBus_regWrite ..), List.append_nil]

/-- Settles O15: past the check of `LIFE` one field is written. -/
theorem setorientWritesOnlyOrient : Obligations.SetorientWritesOnlyOrient :=
  fun s o hl => whenReady_of_ready hl (.next { s with orient := o })

end Sys2Proof.Machine

/-! SUPPORT. The commands of the geometry layer (43_geometry R170 to R184): the transform, the window of a
rectangle and of the full extent, the point and the fill. -/

namespace Sys2Proof.Machine

/-! ## The transform -/

@[simp] theorem transformInv_zero (c : Cfg) (x y : Nat) : transformInv c 0#2 x y = (c.h - 1 - y, x) := rfl

@[simp] theorem transformInv_one (c : Cfg) (x y : Nat) :
    transformInv c 1#2 x y = (c.w - 1 - x, c.h - 1 - y) := rfl

@[simp] theorem transformInv_two (c : Cfg) (x y : Nat) : transformInv c 2#2 x y = (y, c.w - 1 - x) := rfl

@[simp] theorem transformInv_three (c : Cfg) (x y : Nat) : transformInv c 3#2 x y = (x, y) := rfl

/-- The inverse of R175 (b) undoes the transform. -/
theorem transformInv_transform {c : Cfg} {o : BitVec 2} {x y : Nat} (hx : x < sizeX c o) (hy : y < sizeY c o) :
    transformInv c o (transform c o x y).1 (transform c o x y).2 = (x, y) := by
  rcases orientation_cases o with rfl | rfl | rfl | rfl <;> simp_all <;> omega

/-- The inverse of R175 (b) leads from the panel into the logical extent. -/
theorem transformInv_lt {c : Cfg} (o : BitVec 2) {px py : Nat} (hx : px < c.w) (hy : py < c.h) :
    (transformInv c o px py).1 < sizeX c o ∧ (transformInv c o px py).2 < sizeY c o := by
  rcases orientation_cases o with rfl | rfl | rfl | rfl <;> simp_all <;> omega

/-- The transform undoes its inverse. -/
theorem transform_transformInv {c : Cfg} (o : BitVec 2) {px py : Nat} (hx : px < c.w) (hy : py < c.h) :
    transform c o (transformInv c o px py).1 (transformInv c o px py).2 = (px, py) := by
  rcases orientation_cases o with rfl | rfl | rfl | rfl <;> simp_all <;> omega

/-- One step along a falling coordinate. -/
theorem falling_step {n x : Nat} (h : x + 1 < n) : ((n - 1 - (x + 1) : Nat) : Int) - (n - 1 - x : Nat) = -1 := by
  omega

theorem rising_step (x : Nat) : ((x + 1 : Nat) : Int) - x = 1 := by omega

/-- One logical step in each direction turns the same way on the panel (43_geometry R175 d). -/
theorem transform_determinant {c : Cfg} {o : BitVec 2} {x y : Nat} (hx : x + 1 < sizeX c o)
    (hy : y + 1 < sizeY c o) :
    (((transform c o (x + 1) y).1 : Int) - (transform c o x y).1) *
        (((transform c o x (y + 1)).2 : Int) - (transform c o x y).2) -
      (((transform c o (x + 1) y).2 : Int) - (transform c o x y).2) *
        (((transform c o x (y + 1)).1 : Int) - (transform c o x y).1) = 1 := by
  rcases orientation_cases o with rfl | rfl | rfl | rfl
  · simp only [BitVec.ofNat_eq_ofNat, transform_zero, sizeX_zero] at hx ⊢
    rw [falling_step hx, rising_step, sub_self, sub_self]; rfl
  · simp only [BitVec.ofNat_eq_ofNat, transform_one, sizeX_one, sizeY_one] at hx hy ⊢
    rw [falling_step hx, falling_step hy, sub_self, sub_self]; rfl
  · simp only [BitVec.ofNat_eq_ofNat, transform_two, sizeY_two] at hy ⊢
    rw [falling_step hy, rising_step, sub_self, sub_self]; rfl
  · simp only [BitVec.ofNat_eq_ofNat, transform_three]
    rw [rising_step, rising_step, sub_self, sub_self]; rfl

/-! ## Points and corners -/

theorem phys_prod {c : Cfg} (hc : c.valid = true) {o : BitVec 2} {x y : Word} (h : inRange c o x y = true) :
    ((physX c o x y).toNat, (physY c o x y).toNat) = transform c o x.toNat y.toNat := by
  obtain ⟨hx, hy⟩ := phys_toNat c (valid_sizeOk hc) o x y h
  rw [hx, hy]

/-- The sorted corners of a rectangle are in range with the corners named. -/
theorem inRange_sorted {c : Cfg} {o : BitVec 2} {x1 y1 x2 y2 : Word} (h1 : inRange c o x1 y1 = true)
    (h2 : inRange c o x2 y2 = true) :
    inRange c o (minWord x1 x2) (minWord y1 y2) = true ∧ inRange c o (maxWord x1 x2) (maxWord y1 y2) = true := by
  rw [inRange_iff] at h1 h2
  rw [inRange_iff, inRange_iff, minWord_toNat, minWord_toNat, maxWord_toNat, maxWord_toNat]
  omega

theorem lastX_toNat {c : Cfg} (hc : c.sizeOk = true) (o : BitVec 2) : (lastX c o).toNat = sizeX c o - 1 := by
  obtain ⟨hw, hh, hw', hh', -⟩ := (sizeOk_iff c).1 hc
  rw [lastX, BitVec.toNat_ofNat, Nat.mod_eq_of_lt]
  rcases size_cases c o with ⟨h, -⟩ | ⟨h, -⟩ <;> rw [h] <;> omega

theorem lastY_toNat {c : Cfg} (hc : c.sizeOk = true) (o : BitVec 2) : (lastY c o).toNat = sizeY c o - 1 := by
  obtain ⟨hw, hh, hw', hh', -⟩ := (sizeOk_iff c).1 hc
  rw [lastY, BitVec.toNat_ofNat, Nat.mod_eq_of_lt]
  rcases size_cases c o with ⟨-, h⟩ | ⟨-, h⟩ <;> rw [h] <;> omega

/-- A panel size less 1 fits a register. -/
theorem ofNat_pred_toNat {n : Nat} (h0 : 0 < n) (h : n ≤ 65536) : (BitVec.ofNat 16 (n - 1)).toNat + 1 = n := by
  rw [BitVec.toNat_ofNat, Nat.mod_eq_of_lt (by omega)]
  omega

/-! ## The window -/

theorem rectEvents_eq {c : Cfg} {o : BitVec 2} {x1 y1 x2 y2 hs he vs ve : Word}
    (h : windowBounds c o x1 y1 x2 y2 = (hs, he, vs, ve)) :
    rectEvents c o x1 y1 x2 y2 = windowEvents c hs he vs ve := by
  simp only [windowBounds, Prod.mk.injEq] at h
  obtain ⟨hhs, hhe, hvs, hve⟩ := h
  rw [rectEvents, hhs, hhe, hvs, hve]

/-- The window of the full extent is the panel, in every orientation (43_geometry R178). -/
theorem windowBounds_fullExtent {c : Cfg} (hc : c.sizeOk = true) (o : BitVec 2) :
    windowBounds c o 0 0 (lastX c o) (lastY c o) =
      (0, BitVec.ofNat 16 (c.w - 1), 0, BitVec.ofNat 16 (c.h - 1)) := by
  obtain ⟨hw, hh, hw', hh', -⟩ := (sizeOk_iff c).1 hc
  obtain ⟨hr1, hr2⟩ := fullExtent_inRange c hc o
  obtain ⟨hx1, hy1⟩ := phys_toNat c hc o _ _ hr1
  obtain ⟨hx2, hy2⟩ := phys_toNat c hc o _ _ hr2
  have hpw := ofNat_pred_toNat hw hw'
  have hph := ofNat_pred_toNat hh hh'
  rw [lastX_toNat hc, lastY_toNat hc] at hx2 hy2
  rw [windowBounds, Prod.mk.injEq, Prod.mk.injEq, Prod.mk.injEq]
  rcases orientation_cases o with rfl | rfl | rfl | rfl <;>
    (refine ⟨?_, ?_, ?_, ?_⟩ <;> apply BitVec.eq_of_toNat_eq <;>
      simp_all <;> omega)

theorem setWindow_pins (x1 y1 x2 y2 : Word) (s : State) :
    (setWindow x1 y1 x2 y2 s).pins = { s.pins with
      cs := s.cfg.csInactive, dc := s.cfg.dcCommand, wr := true, d := s.cfg.regmap.ramData } := by
  rw [setWindow_eq, State.perform_pins, rectEvents]
  exact (pins_windowEvents ..).trans (by rw [loByte_setWidth]; rfl)

/-- A window changes its registers, the pins, the output registers and the trace. -/
theorem setWindow_frame (x1 y1 x2 y2 : Word) (s : State) :
    let t := setWindow x1 y1 x2 y2 s
    t = { s with
      px1 := t.px1, py1 := t.py1, px2 := t.px2, py2 := t.py2, hs := t.hs, he := t.he, vs := t.vs, ve := t.ve
      pins := t.pins, out := t.out, trace := t.trace } := by
  intro t
  have ht : t = (placeWindow x1 y1 x2 y2 s).perform (rectEvents s.cfg s.orient x1 y1 x2 y2) := rfl
  rw [perform_of_isBus _ (isBus_rectEvents ..)] at ht
  rw [ht]
  rfl

theorem exec_closewindow {s : State} (hl : s.life = .ready) :
    exec .closewindow s = .next (setWindow 0 0 (lastX s.cfg s.orient) (lastY s.cfg s.orient) s) :=
  whenReady_of_ready hl _

/-! ## The point and the answer of `ORIENTXY` -/

theorem exec_orientxy {s : State} {x y : Word} (hl : s.life = .ready)
    (h : inRange s.cfg s.orient x y = true) : exec (.orientxy x y) s = .next (orientResponse x y s) :=
  whenReady_next.2 ⟨hl, whenInRange_next.2 ⟨h, rfl⟩⟩

theorem exec_setpoint {s : State} {x y color : Word} (hl : s.life = .ready)
    (h : inRange s.cfg s.orient x y = true) : exec (.setpoint x y color) s = .next (setPoint x y color s) :=
  whenReady_next.2 ⟨hl, whenInRange_next.2 ⟨h, rfl⟩⟩

theorem pins_pointEvents (c : Cfg) (p : Pins) (px py color : Word) :
    (pointEvents c px py color).foldl (pinsAfter c) p =
      { p with cs := c.csInactive, dc := c.dcData, wr := true, d := loByte color } := by
  simp only [pointEvents, List.foldl_append, pins_regWrite]

/-! ## The fill -/

theorem pins_dataBracket_dataBytes (c : Cfg) (p : Pins) (hi lo : Byte) :
    (dataBracket c (dataBytes hi lo)).foldl (pinsAfter c) p =
      { p with cs := c.csInactive, dc := c.dcData, wr := true, d := lo } := pins_dataWrite c p hi lo

/-- The levels that a run leaves whatever they were before, it leaves when repeated. -/
theorem pins_fillLoop {c : Cfg} {px : List Event} {f : Pins → Pins} (h : ∀ p, px.foldl (pinsAfter c) p = f p)
    (hf : ∀ p, f (f p) = f p) (n : Nat) (p : Pins) :
    (fillLoop px (n + 1)).foldl (pinsAfter c) p = f p := by
  induction n generalizing p with
  | zero => rw [fillLoop, fillLoop, List.append_nil, h]
  | succ n ih => rw [fillLoop, List.foldl_append, ih, h, hf]

/-- The levels after a fill of at least one pixel, in either framing (43_geometry R182, R184). -/
theorem pins_fillEvents (c : Cfg) (p : Pins) (color : Word) {n : Nat} (hn : 0 < n) :
    (fillEvents c color n).foldl (pinsAfter c) p =
      { p with cs := c.csInactive, dc := c.dcData, wr := true, d := loByte color } := by
  obtain ⟨n, rfl⟩ : ∃ m, n = m + 1 := ⟨n - 1, by omega⟩
  rw [fillEvents_eq_dataBracket]
  split
  · simp only [dataBracket, List.foldl_append]
    rw [pins_fillLoop (pins_dataBytes c · _ _) fun _ => rfl]
    rfl
  · exact pins_fillLoop (pins_dataBracket_dataBytes c · _ _) (fun _ => rfl) n p

theorem fillCount_pos (x1 y1 x2 y2 : Word) : 0 < fillCount x1 y1 x2 y2 :=
  Nat.mul_pos (Nat.succ_pos _) (Nat.succ_pos _)

theorem pins_rectFillEvents (c : Cfg) (o : BitVec 2) (p : Pins) (x1 y1 x2 y2 color : Word) :
    (rectFillEvents c o x1 y1 x2 y2 color).foldl (pinsAfter c) p =
      { p with cs := c.csInactive, dc := c.dcData, wr := true, d := loByte color } := by
  rw [rectFillEvents, List.foldl_append, rectEvents, pins_windowEvents, pins_fillEvents c _ _ (fillCount_pos ..)]

/-- The pixels of a fill written out in either framing (43_geometry R182, R184). -/
theorem fillEvents_eq (c : Cfg) (color : Word) (n : Nat) :
    fillEvents c color n =
      if c.fillOneBracket then
        [.sig .dc c.dcData, .sig .cs c.csActive] ++
          (List.replicate n (dataBytes (hiByte color) (loByte color))).flatten ++ [.sig .cs c.csInactive]
      else (List.replicate n (dataWrite c (hiByte color) (loByte color))).flatten := by
  unfold fillEvents pixelEvents
  split <;> rw [fillLoop_eq]

theorem exec_fastfill {s : State} {x1 y1 x2 y2 : Word} (color : Word) (hl : s.life = .ready)
    (h1 : inRange s.cfg s.orient x1 y1 = true) (h2 : inRange s.cfg s.orient x2 y2 = true) :
    exec (.fastfill x1 y1 x2 y2 color) s = .next (fillBody x1 y1 x2 y2 color s) :=
  whenReady_next.2 ⟨hl, whenInRange_next.2 ⟨Bool.and_eq_true_iff.2 ⟨h1, h2⟩, rfl⟩⟩

/-! ## The area of the window -/

theorem side_sorted (a b : Word) : side (minWord a b) (maxWord a b) = side a b := by
  rw [side, side, minWord_toNat, maxWord_toNat]; omega

/-- The transform keeps the sides of a rectangle, or exchanges them. -/
theorem side_phys {c : Cfg} (hc : c.sizeOk = true) {o : BitVec 2} {x1 y1 x2 y2 : Word}
    (h1 : inRange c o x1 y1 = true) (h2 : inRange c o x2 y2 = true) :
    side (physX c o x1 y1) (physX c o x2 y2) * side (physY c o x1 y1) (physY c o x2 y2) =
      side x1 x2 * side y1 y2 := by
  obtain ⟨hx1, hy1⟩ := phys_toNat c hc o _ _ h1
  obtain ⟨hx2, hy2⟩ := phys_toNat c hc o _ _ h2
  rw [inRange_iff] at h1 h2
  have hside : side (physX c o x1 y1) (physX c o x2 y2) = side y1 y2 ∧
        side (physY c o x1 y1) (physY c o x2 y2) = side x1 x2 ∨
      side (physX c o x1 y1) (physX c o x2 y2) = side x1 x2 ∧
        side (physY c o x1 y1) (physY c o x2 y2) = side y1 y2 := by
    simp only [side, hx1, hy1, hx2, hy2]
    rcases orientation_cases o with rfl | rfl | rfl | rfl
    · left; simp_all; omega
    · right; simp_all; omega
    · left; simp_all; omega
    · right; simp_all
  rcases hside with ⟨hx, hy⟩ | ⟨hx, hy⟩
  · rw [hx, hy, Nat.mul_comm]
  · rw [hx, hy]

/-- The bounds a fill leaves: those of its sorted corners. -/
theorem exec_fastfill_bounds {s t : State} {x1 y1 x2 y2 color : Word}
    (h : exec (.fastfill x1 y1 x2 y2 color) s = .next t) :
    (t.hs, t.he, t.vs, t.ve) =
      windowBounds s.cfg s.orient (minWord x1 x2) (minWord y1 y2) (maxWord x1 x2) (maxWord y1 y2) := by
  obtain ⟨-, h⟩ := whenReady_next.1 h
  obtain ⟨-, h⟩ := whenInRange_next.1 h
  cases h
  rw [fillBody_eq]
  rfl

/-- The window of a fill has as many pixels as the rectangle, and lies on the panel. -/
theorem exec_fastfill_area {s t : State} {x1 y1 x2 y2 color : Word} (hv : s.cfg.valid = true)
    (h : exec (.fastfill x1 y1 x2 y2 color) s = .next t) :
    fillCount t.hs t.vs t.he t.ve = side x1 x2 * side y1 y2 ∧
      fillCount t.hs t.vs t.he t.ve ≤ s.cfg.w * s.cfg.h := by
  obtain ⟨-, h1, h2⟩ := exec_fastfill_accepted h
  obtain ⟨hs1, hs2⟩ := inRange_sorted h1 h2
  have hc := valid_sizeOk hv
  have hbounds := exec_fastfill_bounds h
  simp only [windowBounds, Prod.mk.injEq] at hbounds
  obtain ⟨hhs, hhe, hvs, hve⟩ := hbounds
  obtain ⟨hx1, hy1⟩ := phys_toNat s.cfg hc s.orient _ _ hs1
  obtain ⟨hx2, hy2⟩ := phys_toNat s.cfg hc s.orient _ _ hs2
  obtain ⟨hlt1, hlt1'⟩ := transform_lt s.cfg s.orient _ _ ((inRange_iff ..).1 hs1).1 ((inRange_iff ..).1 hs1).2
  obtain ⟨hlt2, hlt2'⟩ := transform_lt s.cfg s.orient _ _ ((inRange_iff ..).1 hs2).1 ((inRange_iff ..).1 hs2).2
  rw [hhs, hhe, hvs, hve, fillCount_sorted]
  refine ⟨?_, Nat.mul_le_mul (side_le (hx1 ▸ hlt1) (hx2 ▸ hlt2)) (side_le (hy1 ▸ hlt1') (hy2 ▸ hlt2'))⟩
  rw [side_phys hc hs1 hs2, side_sorted, side_sorted]

/-! ## The statements -/

/-- Settles O17: in each orientation the formulas are straight lines that turn the panel. -/
theorem transformIsABijection : Obligations.TransformIsABijection := by
  intro c o
  refine ⟨fun x y hx hy => ?_, fun px py hx hy => ?_, fun x y hx hy => ?_, fun x y => transform_determinant⟩
  · obtain ⟨hpx, hpy⟩ := transform_lt c o x y hx hy
    exact ⟨hpx, hpy, transformInv_transform hx hy⟩
  · obtain ⟨hpx, hpy⟩ := transformInv_lt o hx hy
    exact ⟨hpx, hpy, transform_transformInv o hx hy⟩
  · exact transform_transformInv 1 hx hy

/-- Settles O16: the registers hold the transformed point exactly, and the formula is that of the orientation. -/
theorem orientxyAnswersTheTransform : Obligations.OrientxyAnswersTheTransform := by
  intro s x y hl hv hr
  have hx : (orientResponse x y s).rx.toNat = (transform s.cfg s.orient x.toNat y.toNat).1 :=
    (phys_toNat s.cfg (valid_sizeOk hv) s.orient x y hr).1
  have hy : (orientResponse x y s).ry.toNat = (transform s.cfg s.orient x.toNat y.toNat).2 :=
    (phys_toNat s.cfg (valid_sizeOk hv) s.orient x y hr).2
  obtain ⟨hxr, hyr⟩ := (inRange_iff ..).1 hr
  refine ⟨_, exec_orientxy hl hr, rfl, fun ho => ?_, fun ho => ?_, fun ho => ?_, fun ho => ?_⟩ <;>
    rw [ho] at hx hy hxr hyr
  · simp at hx hy hxr hyr; omega
  · simp at hx hy hxr hyr; omega
  · simp at hx hy hxr hyr; omega
  · exact ⟨BitVec.eq_of_toNat_eq hx, BitVec.eq_of_toNat_eq hy⟩

/-- Settles O18: both corners are held exactly, the bounds are their minima and maxima. -/
theorem setwindowProgramsTheWindow : Obligations.SetwindowProgramsTheWindow := by
  intro s x1 y1 x2 y2 hl hv h1 h2
  refine ⟨_, exec_setwindow hl h1 h2, setWindow_frame .., phys_prod hv h1, phys_prod hv h2, minWord_toNat ..,
    maxWord_toNat .., minWord_toNat .., maxWord_toNat .., setWindow_pins .., _, rfl, rfl, rfl⟩

/-- Settles O20: in every orientation the full extent is transformed to the corners of the panel. -/
theorem closewindowProgramsTheFullPanel : Obligations.ClosewindowProgramsTheFullPanel := by
  intro s hl hv
  have hc := valid_sizeOk hv
  obtain ⟨hw, hh, hw', hh', -⟩ := (sizeOk_iff s.cfg).1 hc
  obtain ⟨hr1, hr2⟩ := fullExtent_inRange s.cfg hc s.orient
  have hfull := windowBounds_fullExtent hc s.orient
  have hbounds := (setWindow_bounds 0 0 (lastX s.cfg s.orient) (lastY s.cfg s.orient) s).trans hfull
  simp only [Prod.mk.injEq] at hbounds
  obtain ⟨hhs, hhe, hvs, hve⟩ := hbounds
  have hp2 := phys_prod hv hr2
  rw [lastX_toNat hc, lastY_toNat hc] at hp2
  refine ⟨_, exec_closewindow hl, setWindow_frame .., by rw [hhs]; rfl, by rw [hhe]; exact ofNat_pred_toNat hw hw',
    by rw [hvs]; rfl, by rw [hve]; exact ofNat_pred_toNat hh hh', phys_prod hv hr1, hp2, setWindow_pins .., ?_, ?_⟩
  · rw [setWindow_trace, hhs, hhe, hvs, hve]
  · rw [setWindow_eq, State.perform_out, rectEvents_eq hfull]; rfl

/-- Settles O21: three register writes, none of them to a window register. -/
theorem setpointWritesOnePixel : Obligations.SetpointWritesOnePixel := by
  intro s x y color hl hv hr
  refine ⟨_, exec_setpoint hl hr, ?_, phys_prod hv hr, pins_pointEvents .., _, rfl, rfl, rfl⟩
  rw [setPoint, perform_of_isBus _ (isBus_pointEvents ..)]

/-- Settles O22: the fill is the window of the sorted corners and then its pixels, at least one. -/
theorem fastfillStreamsTheRectangle : Obligations.FastfillStreamsTheRectangle := by
  intro s x1 y1 x2 y2 color hl hv h1 h2
  obtain ⟨hs1, hs2⟩ := inRange_sorted h1 h2
  refine ⟨_, exec_fastfill color hl h1 h2, ?_⟩
  rw [fillBody_eq, perform_of_isBus _ (isBus_rectFillEvents ..)]
  refine ⟨rfl, minWord_toNat .., maxWord_toNat .., minWord_toNat .., maxWord_toNat .., phys_prod hv hs1,
    phys_prod hv hs2, minWord_toNat .., maxWord_toNat .., minWord_toNat .., maxWord_toNat ..,
    pins_rectFillEvents .., _, _, rfl, ?_, rfl, rfl⟩
  rw [rectFillEvents, fillEvents_eq]
  rfl

/-- Settles O23: the sides of the physical window are those of the rectangle, and both lie on the panel. -/
theorem fillSendsTheWindowArea : Obligations.FillSendsTheWindowArea := by
  intro s t x1 y1 x2 y2 color hv h n
  obtain ⟨harea, hle⟩ := exec_fastfill_area hv h
  refine ⟨(fillCount_sorted ..).trans harea.symm, ?_, fillCount_pos .., hle⟩
  rw [exec_fastfill_trace h, ← harea, List.append_assoc]
  rfl

end Sys2Proof.Machine

/-! SUPPORT. Start-up (44_lifecycle R200 to R203, 42_register_interface R153): the registers by name, the shape of
`INIT_SEQ`, and what `BEGIN` makes of the state. -/

namespace Sys2Proof.Machine

/-! ## Registers by name -/

/-- The registers that every configuration uses, less the power and gamma groups. -/
def headRegs (c : Cfg) : List Byte :=
  [c.regmap.oscStart, c.regmap.outputCtrl, c.regmap.lcdDriveAc, c.regmap.displayCtrl, c.regmap.frameCycle,
    c.regmap.gateScanStart, c.regmap.sleepMode, c.regmap.entryMode, c.regmap.ramData, c.regmap.vRamPos,
    c.regmap.hRamStart, c.regmap.hRamEnd, c.regmap.xRamAddr, c.regmap.yRamAddr]

/-- The other registers. -/
def tailRegs (c : Cfg) : List Byte :=
  (if c.vwinPacked then [] else [c.regmap.vRamStart, c.regmap.vRamEnd]) ++ c.regmap.powers ++ c.regmap.gammas

theorem namedRegs_eq (c : Cfg) : c.namedRegs = headRegs c ++ tailRegs c := by
  simp only [Cfg.namedRegs, headRegs, tailRegs, List.append_assoc]

theorem namedRegs_nodup {c : Cfg} (hv : c.valid = true) : (headRegs c ++ tailRegs c).Nodup :=
  namedRegs_eq c ▸ of_decide_eq_true (valid_regsOk hv)

/-- Two registers of the head, by their places in it. -/
theorem headRegs_ne {c : Cfg} (hv : c.valid = true) {i j : Nat} (hi : i < 14) (hj : j < 14) (h : i ≠ j) :
    (headRegs c)[i] ≠ (headRegs c)[j] := fun he =>
  h ((List.nodup_append.1 (namedRegs_nodup hv)).1.getElem_inj_iff.1 he)

theorem headRegs_ne_tailRegs {c : Cfg} (hv : c.valid = true) {a b : Byte} (ha : a ∈ headRegs c)
    (hb : b ∈ tailRegs c) : a ≠ b :=
  (List.nodup_append.1 (namedRegs_nodup hv)).2.2 a ha b hb

theorem sleepMode_ne_ramData {c : Cfg} (hv : c.valid = true) : c.regmap.sleepMode ≠ c.regmap.ramData :=
  headRegs_ne hv (i := 6) (j := 8) (by decide) (by decide) (by decide)

/-- The registers of R93 that a step of `INIT_SEQ` may write besides the one that leaves sleep. -/
structure PlainReg (c : Cfg) (reg : Byte) : Prop where
  named : reg ∈ c.namedRegs
  ne_sleepMode : reg ≠ c.regmap.sleepMode
  ne_ramData : reg ≠ c.regmap.ramData

/-- A register of the head other than the sleep mode and the RAM data port, by its place. -/
theorem plainReg_headRegs {c : Cfg} (hv : c.valid = true) {i : Nat} (hi : i < 14) (h6 : i ≠ 6) (h8 : i ≠ 8) :
    PlainReg c (headRegs c)[i] where
  named := namedRegs_eq c ▸ List.mem_append_left _ (List.getElem_mem _)
  ne_sleepMode := headRegs_ne hv hi (j := 6) (by decide) h6
  ne_ramData := headRegs_ne hv hi (j := 8) (by decide) h8

theorem plainReg_tailRegs {c : Cfg} (hv : c.valid = true) {reg : Byte} (h : reg ∈ tailRegs c) :
    PlainReg c reg where
  named := namedRegs_eq c ▸ List.mem_append_right _ h
  ne_sleepMode := (headRegs_ne_tailRegs hv (by simp [headRegs]) h).symm
  ne_ramData := (headRegs_ne_tailRegs hv (by simp [headRegs]) h).symm

theorem mem_tailRegs_of_power {c : Cfg} {reg : Byte} (h : reg ∈ c.regmap.powers) : reg ∈ tailRegs c := by
  simp [tailRegs, h]

theorem mem_tailRegs_of_gamma {c : Cfg} {reg : Byte} (h : reg ∈ c.regmap.gammas) : reg ∈ tailRegs c := by
  simp [tailRegs, h]

/-! ## The shape of `INIT_SEQ` -/

/-- The step writes a register with the property given. -/
def WritesReg (P : Byte → Prop) (st : InitStep) : Prop := ∃ reg val, st = .write reg val ∧ P reg

/-- The registers written before the panel leaves sleep: G1, G2, G3 of R153. -/
def earlyRegs (c : Cfg) : List Byte := [c.regmap.oscStart, c.regmap.outputCtrl] ++ c.regmap.powers

theorem writesReg_of_isPower {r : RegMap} {st : InitStep} (h : st.isPower r = true) :
    WritesReg (· ∈ r.powers) st := by
  cases st with
  | write reg val => exact ⟨reg, val, rfl, by simpa [InitStep.isPower] using h⟩
  | delay t => cases h

theorem writesReg_of_isVcom {c : Cfg} {st : InitStep} (h : c.isVcom st = true) : WritesReg (PlainReg c) st := by
  cases st with
  | write reg val =>
    simp only [Cfg.isVcom, Bool.and_eq_true, bne_iff_ne, List.contains_iff_mem] at h
    exact ⟨reg, val, rfl, h.1.1, h.1.2, h.2⟩
  | delay t => cases h

theorem writesReg_of_writesTo {P : Byte → Prop} {reg : Byte} (hP : P reg) {st : InitStep}
    (h : st.writesTo reg = true) : WritesReg P st := by
  cases st with
  | write r val => exact ⟨r, val, rfl, (beq_iff_eq.1 h) ▸ hP⟩
  | delay t => cases h

theorem writesReg_of_isGammaGroup {c : Cfg} {l : List InitStep} (h : c.isGammaGroup l = true) :
    ∀ st ∈ l, WritesReg (· ∈ c.regmap.gammas) st := by
  simp only [Cfg.isGammaGroup, Bool.and_eq_true, beq_iff_eq, List.all_eq_true] at h
  obtain ⟨hlen, hall⟩ := h
  intro st hst
  have hfst : (l.zip c.regmap.gammas).map Prod.fst = l := List.map_fst_zip (by rw [hlen]; exact le_refl 10)
  obtain ⟨p, hp, rfl⟩ := List.mem_map.1 (hfst ▸ hst)
  exact writesReg_of_writesTo (List.of_mem_zip hp).2 (hall p hp)

/-- G7 to G9 of R153: VCOM, gamma, the window, none of them the sleep mode or the RAM data port. -/
theorem writesReg_of_isInitTail {c : Cfg} (hv : c.valid = true) {l : List InitStep}
    (h : c.isInitTail l = true) : ∀ st ∈ l, WritesReg (PlainReg c) st := by
  simp only [Cfg.isInitTail, Bool.and_eq_true, decide_eq_true_eq, List.all_eq_true, beq_iff_eq] at h
  obtain ⟨⟨⟨hlen, hvcom⟩, hgamma⟩, hwindow⟩ := h
  have hsplit : l = l.take (l.length - 15) ++ ((l.drop (l.length - 15)).take 10 ++ c.initWindow) := by
    rw [← hwindow, show l.length - 5 = l.length - 15 + 10 by omega, ← List.drop_drop, List.take_append_drop,
      List.take_append_drop]
  intro st hst
  rw [hsplit, List.mem_append, List.mem_append] at hst
  rcases hst with hst | hst | hst
  · exact writesReg_of_isVcom (hvcom st hst)
  · obtain ⟨reg, val, rfl, hreg⟩ := writesReg_of_isGammaGroup hgamma st hst
    exact ⟨reg, val, rfl, plainReg_tailRegs hv (mem_tailRegs_of_gamma hreg)⟩
  · have hplain {i : Nat} (hi : i < 14) (h6 : i ≠ 6) (h8 : i ≠ 8) := plainReg_headRegs hv hi h6 h8
    simp only [Cfg.initWindow, List.mem_cons, List.not_mem_nil, or_false] at hst
    rcases hst with rfl | rfl | rfl | rfl | rfl
    · exact ⟨_, _, rfl, hplain (i := 10) (by decide) (by decide) (by decide)⟩
    · exact ⟨_, _, rfl, hplain (i := 11) (by decide) (by decide) (by decide)⟩
    · exact ⟨_, _, rfl, hplain (i := 9) (by decide) (by decide) (by decide)⟩
    · exact ⟨_, _, rfl, hplain (i := 12) (by decide) (by decide) (by decide)⟩
    · exact ⟨_, _, rfl, hplain (i := 13) (by decide) (by decide) (by decide)⟩

/-- The start-up list of a valid configuration: writes that do not place pixels, the write that leaves sleep with its
wait, and writes that do not put the panel to sleep again (42_register_interface R153). -/
structure InitShape (c : Cfg) (before after : List InitStep) : Prop where
  eq : c.initSeq = before ++ .write c.regmap.sleepMode c.sleepOut :: .delay c.tSlpout :: after
  early : ∀ st ∈ before, WritesReg (· ∈ earlyRegs c) st
  late : ∀ st ∈ after, WritesReg (PlainReg c) st
  starts : ∃ val tl, before = .write c.regmap.oscStart val :: tl

theorem exists_initShape {c : Cfg} (hv : c.valid = true) : ∃ before after, InitShape c before after := by
  have h := valid_initSeqOk hv
  unfold Cfg.initSeqOk at h
  split at h
  · rename_i osc oscVal tl hseq
    obtain ⟨hosc, hrest⟩ := Bool.and_eq_true_iff.1 h
    obtain rfl : osc = c.regmap.oscStart := beq_iff_eq.1 hosc
    have hpowers : ∀ st ∈ tl.takeWhile (InitStep.isPower c.regmap), WritesReg (· ∈ earlyRegs c) st := by
      intro st hst
      obtain ⟨reg, val, rfl, hreg⟩ := writesReg_of_isPower (List.mem_takeWhile_imp hst)
      exact ⟨reg, val, rfl, List.mem_append_right _ hreg⟩
    unfold Cfg.isInitRest at hrest
    split at hrest
    · rename_i out outVal slp v d ent entVal dsp dspVal tail hdrop
      simp only [Bool.and_eq_true, beq_iff_eq] at hrest
      obtain ⟨⟨⟨⟨⟨⟨rfl, rfl⟩, rfl⟩, rfl⟩, rfl⟩, rfl⟩, htail⟩ := hrest
      refine ⟨.write c.regmap.oscStart oscVal ::
          (tl.takeWhile (InitStep.isPower c.regmap) ++ [.write c.regmap.outputCtrl outVal]),
        .write c.regmap.entryMode entVal :: .write c.regmap.displayCtrl dspVal :: tail, ?_, ?_, ?_, _, _, rfl⟩
      · have htl := List.takeWhile_append_dropWhile (p := InitStep.isPower c.regmap) (l := tl)
        rw [hdrop] at htl
        rw [hseq, List.cons_append, List.append_assoc]
        exact congrArg _ htl.symm
      · rw [List.forall_mem_cons, List.forall_mem_append, List.forall_mem_singleton]
        exact ⟨⟨_, _, rfl, by simp [earlyRegs]⟩, hpowers, ⟨_, _, rfl, by simp [earlyRegs]⟩⟩
      · rw [List.forall_mem_cons, List.forall_mem_cons]
        exact ⟨⟨_, _, rfl, plainReg_headRegs hv (i := 7) (by decide) (by decide) (by decide)⟩,
          ⟨_, _, rfl, plainReg_headRegs hv (i := 3) (by decide) (by decide) (by decide)⟩,
          writesReg_of_isInitTail hv htail⟩
    · cases hrest
  · cases h

/-- What is written before the panel leaves sleep is neither the sleep mode nor the RAM data port. -/
theorem plainReg_earlyRegs {c : Cfg} (hv : c.valid = true) {reg : Byte} (h : reg ∈ earlyRegs c) :
    PlainReg c reg := by
  simp only [earlyRegs, List.mem_append, List.mem_cons, List.not_mem_nil, or_false] at h
  rcases h with (rfl | rfl) | h
  · exact plainReg_headRegs hv (i := 0) (by decide) (by decide) (by decide)
  · exact plainReg_headRegs hv (i := 1) (by decide) (by decide) (by decide)
  · exact plainReg_tailRegs hv (mem_tailRegs_of_power h)

/-! ## What `BEGIN` sends -/

/-- A step of `INIT_SEQ` leaves CS inactive and WR at 1, if they were, and does not move RD or RST. -/
theorem pins_rd_rst_initStepEvents (c : Cfg) (p : Pins) (st : InitStep) :
    ((initStepEvents c st).foldl (pinsAfter c) p).rd = p.rd ∧
      ((initStepEvents c st).foldl (pinsAfter c) p).rst = p.rst := by
  cases st with
  | write reg val => exact pins_rd_rst_of_isBus (isBus_regWrite c reg val) c p
  | delay t => exact ⟨rfl, rfl⟩

theorem pins_rd_rst_flatMap_initStepEvents (c : Cfg) (l : List InitStep) (p : Pins) :
    ((l.flatMap (initStepEvents c)).foldl (pinsAfter c) p).rd = p.rd ∧
      ((l.flatMap (initStepEvents c)).foldl (pinsAfter c) p).rst = p.rst := by
  induction l generalizing p with
  | nil => exact ⟨rfl, rfl⟩
  | cons st l ih =>
    rw [List.flatMap_cons, List.foldl_append]
    obtain ⟨hrd, hrst⟩ := ih ((initStepEvents c st).foldl (pinsAfter c) p)
    obtain ⟨hrd1, hrst1⟩ := pins_rd_rst_initStepEvents c p st
    exact ⟨hrd.trans hrd1, hrst.trans hrst1⟩

/-- RST after the panel reset: idle when pulsed, untouched when hardwired (44_lifecycle R202; log entry 22). -/
theorem pins_pulseEvents (c : Cfg) (p : Pins) :
    (pulseEvents c).foldl (pinsAfter c) (p.idle c) =
      { p.idle c with rst := match c.resetMode with | .pulsed => c.rstInactive | .hardwired => p.rst } := by
  unfold pulseEvents Pins.idle
  cases c.resetMode <;> rfl

/-- The levels that `BEGIN` leaves (44_lifecycle R203). -/
theorem pins_beginEvents (c : Cfg) (p : Pins) :
    (beginEvents c).foldl (pinsAfter c) p =
      { cs := c.csInactive, dc := c.dcData, wr := true, rd := c.rdIdle
        rst := match c.resetMode with | .pulsed => c.rstInactive | .hardwired => p.rst
        d := loByte c.clearColor } := by
  obtain ⟨hrd, hrst⟩ := pins_rd_rst_flatMap_initStepEvents c c.initSeq
    ((pulseEvents c).foldl (pinsAfter c) (p.idle c))
  rw [pins_pulseEvents] at hrd hrst
  rw [beginEvents_eq, List.foldl_cons, List.foldl_append, List.foldl_append, pins_rectFillEvents]
  change Pins.mk _ _ _ (List.foldl _ (List.foldl _ (p.idle c) _) (c.initSeq.flatMap _)).rd
    (List.foldl _ (List.foldl _ (p.idle c) _) (c.initSeq.flatMap _)).rst _ = _
  rw [pins_pulseEvents, hrd, hrst]
  rfl

/-- A list of writes holds no wait. -/
theorem filter_isWait_of_writes {c : Cfg} {P : Byte → Prop} {l : List InitStep} (h : ∀ st ∈ l, WritesReg P st) :
    (l.flatMap (initStepEvents c)).filter Event.isWait = [] := by
  induction l with
  | nil => rfl
  | cons st l ih =>
    obtain ⟨⟨reg, val, rfl, -⟩, hl⟩ := List.forall_mem_cons.1 h
    rw [List.flatMap_cons, List.filter_append, ih hl, initStepEvents,
      filter_isWait_of_isBus (isBus_regWrite c reg val), List.append_nil]

/-- `INIT_SEQ` waits once (42_register_interface R153 G4). -/
theorem filter_isWait_initEvents {c : Cfg} (hv : c.valid = true) :
    (initEvents c).filter Event.isWait = [.wait c.tSlpout] := by
  obtain ⟨before, after, hshape⟩ := exists_initShape hv
  rw [initEvents, hshape.eq, List.flatMap_append, List.flatMap_cons, List.flatMap_cons, List.filter_append,
    List.filter_append, List.filter_append, filter_isWait_of_writes hshape.early,
    filter_isWait_of_writes hshape.late, initStepEvents, filter_isWait_of_isBus (isBus_regWrite ..)]
  rfl

theorem filter_isWait_beginEvents {c : Cfg} (hv : c.valid = true) :
    (beginEvents c).filter Event.isWait =
      (if c.resetMode = .pulsed then [.wait c.tRstLow] else []) ++ [.wait c.tSlpout] := by
  have hpulse : (pulseEvents c).filter Event.isWait = if c.resetMode = .pulsed then [.wait c.tRstLow] else [] := by
    unfold pulseEvents
    cases c.resetMode <;> rfl
  rw [beginEvents_eq, List.filter_cons_of_neg (by simp [Event.isWait]), List.filter_append, List.filter_append, hpulse,
    filter_isWait_initEvents hv, filter_isWait_of_isBus (isBus_rectFillEvents ..), List.append_nil]

/-! ## The start-up clear -/

/-- The corners of the full extent in orientation 1, transformed (44_lifecycle R204). -/
theorem phys_fullExtent {c : Cfg} (hc : c.sizeOk = true) :
    physX c 1 0 0 = BitVec.ofNat 16 (c.w - 1) ∧ physY c 1 0 0 = BitVec.ofNat 16 (c.h - 1) ∧
      physX c 1 (lastX c 1) (lastY c 1) = 0 ∧ physY c 1 (lastX c 1) (lastY c 1) = 0 := by
  refine ⟨rfl, rfl, ?_, ?_⟩
  · simp [physX, lastX_toNat hc]
  · simp [physY, lastY_toNat hc]

theorem fillCount_fullExtent {c : Cfg} (hc : c.sizeOk = true) :
    fillCount 0 0 (lastX c 1) (lastY c 1) = c.w * c.h := by
  obtain ⟨hw, hh, -⟩ := (sizeOk_iff c).1 hc
  rw [fillCount, lastX_toNat hc, lastY_toNat hc]
  simp [Nat.sub_add_cancel hw, Nat.sub_add_cancel hh]

/-- The clear of `BEGIN` is the window of the panel and a pixel for each of its points. -/
theorem rectFillEvents_fullExtent {c : Cfg} (hc : c.sizeOk = true) (color : Word) :
    rectFillEvents c 1 0 0 (lastX c 1) (lastY c 1) color =
      windowEvents c 0 (BitVec.ofNat 16 (c.w - 1)) 0 (BitVec.ofNat 16 (c.h - 1)) ++
        fillEvents c color (c.w * c.h) := by
  have hmin : ∀ v : Word, minWord 0 v = 0 := fun v => if_pos (Nat.zero_le _)
  have hmax : ∀ v : Word, maxWord 0 v = v := fun v => if_pos (Nat.zero_le _)
  rw [rectFillEvents, hmin, hmin, hmax, hmax, rectEvents_eq (windowBounds_fullExtent hc 1),
    fillCount_fullExtent hc]

theorem exec_begin {s : State} (hl : s.life = .uninit) : exec .begin s = .next (beginBody s) := if_pos hl

theorem beginBody_trace (s : State) : (beginBody s).trace = s.trace ++ beginEvents s.cfg :=
  (beginBody_eq s) ▸ rfl

/-! ## What start-up costs -/

theorem length_regWrite {c : Cfg} (h : c.cmdXfers = .one) (reg : Byte) (val : Word) :
    (regWrite c reg val).length = 13 := by
  rw [regWrite, length_commandDataWrite, length_cmdBytes, h]; rfl

/-- A packed window is five register writes and a command (41_bus_protocol R138). -/
theorem length_windowEvents {c : Cfg} (h : c.cmdXfers = .one) (hp : c.vwinPacked = true) (hs he vs ve : Word) :
    (windowEvents c hs he vs ve).length = 71 := by
  simp only [windowEvents, hp, if_true, List.length_append, length_regWrite h, length_commandWrite, length_cmdBytes, h]
  rfl

theorem length_fillEvents {c : Cfg} (h : c.fillOneBracket = false) (color : Word) (n : Nat) :
    (fillEvents c color n).length = n * 9 := by
  have hpixel : (dataBracket c (dataBytes (hiByte color) (loByte color))).length = 9 := rfl
  rw [fillEvents_eq_dataBracket, h, if_neg Bool.false_ne_true, fillLoop_length, hpixel]

theorem length_initStepEvents {c : Cfg} (h : c.cmdXfers = .one) (st : InitStep) :
    (initStepEvents c st).length = match st with | .write .. => 13 | .delay _ => 1 := by
  cases st with
  | write reg val => exact length_regWrite h reg val
  | delay t => rfl

/-- The 25 steps of the default list (42_register_interface R155): 24 writes and a wait. -/
theorem length_initEvents_decided (p : OpenParams) : (initEvents (Cfg.decided p)).length = 313 := by
  have hx : (Cfg.decided p).cmdXfers = .one := rfl
  have hseq : (Cfg.decided p).initSeq = defaultInitSeq (RegMap.decided p.vRamStart p.vRamEnd) := rfl
  simp [initEvents, length_initStepEvents hx, hseq, defaultInitSeq, defaultInitGamma,
    defaultInitWindow]

theorem length_pulseEvents (c : Cfg) :
    (pulseEvents c).length = if c.resetMode = .pulsed then 3 else 0 := by
  unfold pulseEvents
  cases c.resetMode <;> rfl

/-- A full-screen fill of the decided panel: its window and 76 800 pixels of 9 events. -/
theorem length_fullFill_decided (p : OpenParams) (color : Word) :
    (rectFillEvents (Cfg.decided p) 1 0 0 (lastX (Cfg.decided p) 1) (lastY (Cfg.decided p) 1) color).length =
      691271 := by
  have hw : (Cfg.decided p).w = 320 := rfl
  have hh : (Cfg.decided p).h = 240 := rfl
  rw [rectFillEvents_fullExtent (valid_sizeOk (decided_valid p)), List.length_append, length_windowEvents rfl rfl,
    length_fillEvents rfl, hw, hh]

/-- What `BEGIN` makes of the registers (44_lifecycle R200): the panel's window, the operands of the clear. -/
theorem beginBody_frame (s : State) (hc : s.cfg.sizeOk = true) :
    let t := beginBody s
    t = { s with
      life := .ready, orient := 1, pinsConfigured := true, count := 0, seqPc := s.cfg.initSeq.length
      x0 := 0, x1 := 0, x2 := BitVec.ofNat 16 (s.cfg.w - 1), x3 := BitVec.ofNat 16 (s.cfg.h - 1)
      x4 := s.cfg.clearColor
      px1 := BitVec.ofNat 16 (s.cfg.w - 1), py1 := BitVec.ofNat 16 (s.cfg.h - 1), px2 := 0, py2 := 0
      hs := 0, he := BitVec.ofNat 16 (s.cfg.w - 1), vs := 0, ve := BitVec.ofNat 16 (s.cfg.h - 1)
      touchCal := if s.cfg.hasTouch then Config.touchCalibration else s.touchCal
      pins := t.pins, out := t.out, trace := t.trace } := by
  intro t
  obtain ⟨hx1, hy1, hx2, hy2⟩ := phys_fullExtent hc
  have hb := windowBounds_fullExtent hc 1
  simp only [windowBounds, Prod.mk.injEq] at hb
  obtain ⟨hhs, hhe, hvs, hve⟩ := hb
  have ht : t = _ := beginBody_eq s
  rw [ht]
  simp only [State.perform, placeWindow, hhs, hhe, hvs, hve]
  rw [hx1, hy1, hx2, hy2]
  rfl

/-! ## The statements -/

/-- Settles O24: the start-up clear is the window of the panel with all its pixels, and the last levels are those
of the last pixel. -/
theorem beginBringsTheBlockUp : Obligations.BeginBringsTheBlockUp := by
  intro s hl hv
  have hpins : (beginBody s).pins = (beginEvents s.cfg).foldl (pinsAfter s.cfg) s.pins :=
    (exec_ran (exec_begin hl)).pins
  rw [pins_beginEvents] at hpins
  refine ⟨_, exec_begin hl, beginBody_frame s (valid_sizeOk hv), by rw [hpins]; rfl, by rw [hpins], by rw [hpins]; rfl,
    by rw [hpins], by rw [hpins]; rfl, fun hm => by rw [hpins, hm]; rfl, fun hm => by rw [hpins, hm], _, ?_,
    beginBody_trace s, (exec_ran (exec_begin hl)).out⟩
  rw [beginEvents, rectFillEvents_fullExtent (valid_sizeOk hv)]
  simp only [List.append_assoc]
  cases s.cfg.resetMode <;> rfl

/-- Settles O25: the counts of the parts, added up. -/
theorem decidedStartUpCosts : Obligations.DecidedStartUpCosts := by
  intro s t p hcfg
  refine ⟨fun h => ?_, fun color ho h => ?_⟩
  · rw [length_trace_of_exec h, hcfg, commandEvents, beginEvents_eq, List.length_cons, List.length_append,
      List.length_append, length_initEvents_decided, length_fullFill_decided, length_pulseEvents]
    change _ + ((if p.resetMode = .pulsed then 3 else 0) + 313 + 691271 + 1) = _
    split <;> rfl
  · rw [length_trace_of_exec h, hcfg, ho]
    exact congrArg _ (length_fullFill_decided p color)

/-- Settles O26: the waits of `BEGIN` are those of the panel reset and of `INIT_SEQ`. -/
theorem beginMakesTheTwoWaits : Obligations.BeginMakesTheTwoWaits := by
  intro s hl hv
  have hdelays := valid_delaysOk hv
  simp only [Cfg.delaysOk, Bool.and_eq_true, decide_eq_true_eq] at hdelays
  exact ⟨hdelays.1, hdelays.2, _, _, exec_begin hl, beginBody_trace s, filter_isWait_beginEvents hv⟩

end Sys2Proof.Machine

/-! SUPPORT. The protocol rules of 41_bus_protocol R137 for each procedure, and the trace and the levels that every
step keeps (R136). -/

namespace Sys2Proof.Machine

/-! ## Runs that keep the rules -/

/-- From wires with the levels `P` the events keep the rules (a) to (f) of R137, and the wires have `P` again
after them. -/
structure Lawful (c : Cfg) (P : Pins → Prop) (evs : List Event) : Prop where
  obeys : ∀ p, P p → protocolFrom c p evs = true
  keeps : ∀ p, P p → P (evs.foldl (pinsAfter c) p)

theorem Lawful.nil (c : Cfg) (P : Pins → Prop) : Lawful c P [] := ⟨fun _ _ => rfl, fun _ hp => hp⟩

theorem Lawful.append {c : Cfg} {P : Pins → Prop} {a b : List Event} (ha : Lawful c P a) (hb : Lawful c P b) :
    Lawful c P (a ++ b) where
  obeys p hp := protocolFrom_append (ha.obeys p hp) (hb.obeys _ (ha.keeps p hp))
  keeps p hp := by
    rw [List.foldl_append]
    exact hb.keeps _ (ha.keeps p hp)

theorem Lawful.fillLoop {c : Cfg} {P : Pins → Prop} {pixel : List Event} (h : Lawful c P pixel) (n : Nat) :
    Lawful c P (fillLoop pixel n) := by
  induction n with
  | zero => exact .nil c P
  | succ n ih => exact h.append ih

theorem lawful_commandWrite (c : Cfg) (cmd : Word) : Lawful c (Quiet c) (commandWrite c cmd) where
  obeys p hp := by
    rw [commandWrite, cmdBytes_eq]
    cases c.cmdXfers <;>
      simp [strobe, protocolFrom, keepsProtocol, pulseFollows, bracketFollows, pinsAfter, Pins.set, hp.cs, hp.wr]
  keeps := (sends_commandWrite c cmd).keeps

theorem lawful_commandDataWrite (c : Cfg) (cmd : Word) (hi lo : Byte) :
    Lawful c (Quiet c) (commandDataWrite c cmd hi lo) where
  obeys p hp := by
    rw [commandDataWrite, cmdBytes_eq]
    cases c.cmdXfers <;>
      simp [strobe, dataBytes, protocolFrom, keepsProtocol, pulseFollows, bracketFollows, pinsAfter, Pins.set,
        hp.cs, hp.wr]
  keeps p hp := by rw [pins_commandDataWrite]; exact ⟨rfl, rfl, hp.rd⟩

theorem lawful_dataBytes (c : Cfg) (hi lo : Byte) : Lawful c (Streaming c) (dataBytes hi lo) where
  obeys p hp := by
    simp [strobe, dataBytes, protocolFrom, keepsProtocol, pulseFollows, pinsAfter, Pins.set, hp.cs, hp.wr]
  keeps := (sends_dataBytes c hi lo).keeps

/-- DC moves just before CS goes active, and CS moves with WR at 1 (R137 a, d). -/
theorem Lawful.dataBracket {c : Cfg} {evs : List Event} (h : Lawful c (Streaming c) evs) :
    Lawful c (Quiet c) (dataBracket c evs) := by
  have opened (p : Pins) (hp : Quiet c p) : Streaming c { p with dc := c.dcData, cs := c.csActive } :=
    ⟨rfl, rfl, hp.wr, hp.rd⟩
  refine ⟨fun p hp => ?_, fun p hp => ?_⟩
  · have hopen : protocolFrom c p [.sig .dc c.dcData, .sig .cs c.csActive] = true := by
      simp [protocolFrom, keepsProtocol, bracketFollows, pinsAfter, Pins.set, hp.cs, hp.wr]
    have hclose (q : Pins) (hq : q.wr = true) : protocolFrom c q [.sig .cs c.csInactive] = true := by
      simp [protocolFrom, keepsProtocol, hq]
    rw [Machine.dataBracket, List.append_assoc]
    exact protocolFrom_append hopen (protocolFrom_append (h.obeys _ (opened p hp))
      (hclose _ (h.keeps _ (opened p hp)).wr))
  · have hs := h.keeps _ (opened p hp)
    simp only [Machine.dataBracket, List.foldl_append]
    exact ⟨rfl, hs.wr, hs.rd⟩

theorem lawful_dataWrite (c : Cfg) (hi lo : Byte) : Lawful c (Quiet c) (dataWrite c hi lo) :=
  (lawful_dataBytes c hi lo).dataBracket

theorem lawful_regWrite (c : Cfg) (reg : Byte) (val : Word) : Lawful c (Quiet c) (regWrite c reg val) :=
  lawful_commandDataWrite ..

theorem lawful_windowEvents (c : Cfg) (hs he vs ve : Word) : Lawful c (Quiet c) (windowEvents c hs he vs ve) := by
  have hrows : Lawful c (Quiet c)
      (if c.vwinPacked then regWrite c c.regmap.vRamPos (packedRows vs ve)
        else regWrite c c.regmap.vRamStart vs ++ regWrite c c.regmap.vRamEnd ve) := by
    split
    · exact lawful_regWrite ..
    · exact (lawful_regWrite ..).append (lawful_regWrite ..)
  exact (((((lawful_regWrite ..).append (lawful_regWrite ..)).append hrows).append (lawful_regWrite ..)).append
    (lawful_regWrite ..)).append (lawful_commandWrite ..)

theorem lawful_fillEvents (c : Cfg) (color : Word) (n : Nat) : Lawful c (Quiet c) (fillEvents c color n) := by
  have hpixel := lawful_dataBytes c (hiByte color) (loByte color)
  rw [fillEvents_eq_dataBracket]
  split
  · exact (hpixel.fillLoop n).dataBracket
  · exact hpixel.dataBracket.fillLoop n

theorem lawful_rectFillEvents (c : Cfg) (o : BitVec 2) (x1 y1 x2 y2 color : Word) :
    Lawful c (Quiet c) (rectFillEvents c o x1 y1 x2 y2 color) :=
  (lawful_windowEvents ..).append (lawful_fillEvents ..)

/-- Every command but `BEGIN` keeps the rules from quiet wires. -/
theorem lawful_commandEvents (c : Cfg) (o : BitVec 2) {i : Instr} (h : i ≠ .begin) :
    Lawful c (Quiet c) (commandEvents c o i) := by
  cases i with
  | wrcmd => exact lawful_commandWrite ..
  | wrdata | wrdata88 => exact lawful_dataWrite ..
  | wrcmddata => exact lawful_commandDataWrite ..
  | wrreg | setbacklight => exact lawful_regWrite ..
  | setwindow | closewindow => exact lawful_windowEvents ..
  | setpoint => exact ((lawful_regWrite ..).append (lawful_regWrite ..)).append (lawful_regWrite ..)
  | fastfill => exact lawful_rectFillEvents ..
  | setorient | orientxy | setintensity | whoami | readtouch => exact .nil ..
  | begin => exact absurd rfl h

/-! ## `BEGIN` keeps the rules -/

theorem quiet_idle {c : Cfg} (hv : c.valid = true) (p : Pins) : Quiet c (p.idle c) :=
  ⟨rfl, valid_strobeOk hv, rfl⟩

/-- RST moves and time passes outside every bracket. -/
theorem lawful_pulseEvents (c : Cfg) : Lawful c (Quiet c) (pulseEvents c) := by
  unfold pulseEvents
  cases c.resetMode with
  | hardwired => exact .nil ..
  | pulsed =>
    refine ⟨fun p hp => ?_, fun p hp => ⟨hp.cs, hp.wr, hp.rd⟩⟩
    simp [resetPulse, protocolFrom, keepsProtocol, pinsAfter, Pins.set, hp.cs, hp.wr]

theorem lawful_initStepEvents (c : Cfg) (st : InitStep) : Lawful c (Quiet c) (initStepEvents c st) := by
  cases st with
  | write reg val => exact lawful_regWrite ..
  | delay t => exact ⟨fun p hp => by simp [initStepEvents, protocolFrom, keepsProtocol, hp.cs, hp.wr],
      fun p hp => hp⟩

theorem lawful_initEvents (c : Cfg) : Lawful c (Quiet c) (initEvents c) := by
  unfold initEvents
  induction c.initSeq with
  | nil => exact .nil ..
  | cons st l ih => exact (lawful_initStepEvents c st).append ih

theorem protocolOk_beginEvents {c : Cfg} (hv : c.valid = true) : protocolOk c (beginEvents c) = true := by
  rw [beginEvents_eq]
  exact (((lawful_pulseEvents c).append (lawful_initEvents c)).append (lawful_rectFillEvents ..)).obeys _
    (quiet_idle hv _)

/-! ## The trace of a machine -/

/-- The trace invariant reads the configuration, the life cycle, the trace and the pins. -/
theorem TraceInv.congr {s t : State} (h : TraceInv s) (hc : t.cfg = s.cfg) (hl : t.life = s.life)
    (ht : t.trace = s.trace) (hp : t.pins = s.pins) : TraceInv t := by
  obtain ⟨hsettled, hfresh, hprotocol, hstarted, hpins, hquiet⟩ := h
  refine ⟨?_, ?_, ?_, ?_, ?_, ?_⟩
  · rwa [hl]
  · rwa [hl, ht]
  · rwa [hc, ht]
  · rwa [hl, ht]
  · rwa [hc, ht, hp]
  · unfold QuietPins at hquiet ⊢
    rwa [hc, hl, hp]

/-- In `Ready` a run that keeps the rules may be sent. -/
theorem TraceInv.protocolOk_append {s : State} (h : TraceInv s) (hl : s.life = .ready) {evs : List Event}
    (he : Lawful s.cfg (Quiet s.cfg) evs) : protocolOk s.cfg (s.trace ++ evs) = true := by
  obtain ⟨es, hes⟩ := h.started hl
  have hprotocol := h.protocol
  have hpins := h.pins
  have hquiet := h.quietPins hl
  rw [hes] at hprotocol hpins ⊢
  rw [hpins] at hquiet
  exact protocolFrom_append hprotocol (he.obeys _ hquiet)

/-- A command other than `BEGIN`, in `Ready`. -/
theorem traceInv_of_ready {i : Instr} {s t : State} (h : TraceInv s) (hl : s.life = .ready) (hi : i ≠ .begin)
    (he : exec i s = .next t) : TraceInv t := by
  have hran := exec_ran he
  have hlaw := lawful_commandEvents s.cfg s.orient hi
  have hlife : t.life = .ready := by rw [hran.life, lifeAfter_of_ne hi, hl]
  refine ⟨by rw [hlife]; exact nofun, by rw [hlife]; exact nofun, ?_, fun _ => ?_, ?_, fun _ => ?_⟩
  · rw [hran.cfg, hran.trace]
    exact h.protocolOk_append hl hlaw
  · obtain ⟨es, hes⟩ := h.started hl
    exact ⟨_, by rw [hran.trace, hes, List.cons_append]⟩
  · rw [hran.pins, hran.cfg, hran.trace, List.foldl_append, ← h.pins]
  · obtain ⟨-, -, -, hrst⟩ := h.quiet hl
    obtain ⟨hcs, hwr, hrd⟩ := hlaw.keeps _ (h.quietPins hl)
    have hkept := (pins_rd_rst_of_isBus (isBus_commandEvents s.cfg s.orient hi) s.cfg s.pins).2
    rw [hran.cfg, hran.pins]
    exact ⟨hcs, hwr, hrd, fun hm => hkept.trans (hrst hm)⟩

/-- `BEGIN`, on an empty trace. -/
theorem traceInv_begin {s t : State} (hv : s.cfg.valid = true) (h : TraceInv s) (he : exec .begin s = .next t) :
    TraceInv t := by
  obtain ⟨hl, -⟩ := exec_begin_next.1 he
  have hran := exec_ran he
  have hlife : t.life = .ready := hran.life
  have htrace : t.trace = beginEvents s.cfg := by rw [hran.trace, h.fresh hl]; rfl
  refine ⟨by rw [hlife]; exact nofun, by rw [hlife]; exact nofun, ?_, fun _ => ?_, ?_, fun _ => ?_⟩
  · rw [hran.cfg, htrace]
    exact protocolOk_beginEvents hv
  · exact ⟨_, htrace.trans (beginEvents_eq s.cfg)⟩
  · rw [hran.pins, hran.cfg, htrace, h.pins, h.fresh hl]
    rfl
  · rw [hran.cfg, hran.pins]
    refine (pins_beginEvents s.cfg s.pins) ▸ ⟨rfl, rfl, rfl, fun hm => ?_⟩
    rw [hm]

theorem traceInv_of_exec {i : Instr} {s t : State} (hv : s.cfg.valid = true) (h : TraceInv s)
    (he : exec i s = .next t) : TraceInv t := by
  by_cases hb : i = .begin
  · subst hb
    exact traceInv_begin hv h he
  by_cases hw : i = .whoami
  · subst hw
    cases he
    exact h.congr rfl rfl rfl rfl
  · exact traceInv_of_ready h (ready_of_exec he hb hw) hb he

/-! ## The statements -/

/-- Settles O49: each procedure keeps the rules from quiet wires and leaves them quiet, and runs that keep the
rules may be put one after the other. -/
theorem everyStepKeepsTheProtocol : Obligations.EveryStepKeepsTheProtocol := by
  intro s t hv h hstep
  obtain ⟨-, rfl⟩ | ⟨-, -, rfl⟩ | ⟨w, rest, i, u, -, -, -, he, rfl⟩ := step_cases hstep
  · rw [stepBusy_frame]
    exact h.congr rfl rfl rfl rfl
  · exact h
  · have ha : TraceInv (s.accept w rest) := h.congr rfl rfl rfl rfl
    exact (traceInv_of_exec (s := s.accept w rest) hv ha he).congr rfl rfl rfl rfl

/-- Settles O53: the decided configuration is valid, nothing was sent, and the clauses about `Ready` do not apply. -/
theorem resetMeetsTheInvariants : Obligations.ResetMeetsTheInvariants := by
  refine ⟨decided_valid _, rfl, rfl, rfl, rfl, ⟨nofun, rfl, rfl, nofun⟩, ?_, ⟨nofun, rfl, nofun, nofun⟩,
    ⟨rfl, rfl⟩, ⟨rfl, Nat.zero_le _⟩⟩
  exact ⟨nofun, fun _ => rfl, rfl, nofun, rfl, nofun⟩

end Sys2Proof.Machine

/-! SUPPORT. The physical outputs (40_port_abstraction R117, R118, R120): what each write does to the bit at a
place, that both strategies do it, and that the outputs follow the pins. -/

namespace Sys2Proof.Machine

/-! ## The bit at a place -/

/-- The level of the output bit at a place. -/
def bitAt (o : OutFile) (q : PinPos) : Bool := (OutFile.read o q.port).testBit q.bit

theorem pinPos_eq_iff (q r : PinPos) : q = r ↔ q.port = r.port ∧ q.bit = r.bit := by
  cases q; cases r; simp

theorem bitAt_writePin {o : OutFile} (h : OutFile.wf o = true) (q : PinPos) (v : Level) (r : PinPos) :
    bitAt (o.writePin q v) r = if r = q then v else bitAt o r := by
  rw [bitAt, testBit_writePin h]
  simp only [pinPos_eq_iff, bitAt]

/-! ## A run of single-pin writes -/

section Writes

variable {α : Type} (place : α → PinPos) (level : α → Level)

/-- Each element's level is written at its place, in order. -/
def writePins (l : List α) (o : OutFile) : OutFile := l.foldl (fun o x => o.writePin (place x) (level x)) o

theorem wf_writePins (l : List α) {o : OutFile} (h : OutFile.wf o = true) :
    OutFile.wf (writePins place level l o) = true :=
  wf_foldl _ (fun _ _ ho => wf_writePin ho _ _) l h

theorem bitAt_writePins_of_notMem {l : List α} {o : OutFile} (h : OutFile.wf o = true) {q : PinPos}
    (hq : q ∉ l.map place) : bitAt (writePins place level l o) q = bitAt o q := by
  induction l generalizing o with
  | nil => rfl
  | cons x l ih =>
    rw [List.map_cons, List.mem_cons, not_or] at hq
    exact (ih (wf_writePin h _ _) hq.2).trans ((bitAt_writePin h _ _ q).trans (if_neg hq.1))

/-- Where each element has a place of its own, its level stands there afterwards. -/
theorem bitAt_writePins_of_mem {l : List α} {o : OutFile} (h : OutFile.wf o = true) (hl : (l.map place).Nodup)
    {x : α} (hx : x ∈ l) : bitAt (writePins place level l o) (place x) = level x := by
  induction l generalizing o with
  | nil => cases hx
  | cons y l ih =>
    rw [List.map_cons, List.nodup_cons] at hl
    rcases List.mem_cons.1 hx with rfl | hx
    · exact (bitAt_writePins_of_notMem place level (wf_writePin h _ _) hl.1).trans
        ((bitAt_writePin h _ _ _).trans (if_pos rfl))
    · exact ih (wf_writePin h _ _) hl.2 hx

end Writes

/-! ## The data byte under the generic strategy -/

theorem driveGeneric_eq (o : OutFile) (m : PinMap) (b : Byte) :
    o.driveGeneric m b = writePins Prod.fst (fun x : PinPos × Nat => b.getLsbD x.2) m.data.zipIdx o := rfl

theorem map_fst_zipIdx (l : List PinPos) : l.zipIdx.map Prod.fst = l := List.zipIdx_map_fst 0 l

theorem bitAt_driveGeneric_line {m : PinMap} (hm : m.data.Nodup) {o : OutFile} (h : OutFile.wf o = true) (b : Byte)
    {x : PinPos × Nat} (hx : x ∈ m.data.zipIdx) : bitAt (o.driveGeneric m b) x.1 = b.getLsbD x.2 := by
  rw [driveGeneric_eq]
  exact bitAt_writePins_of_mem _ _ h (by rwa [map_fst_zipIdx]) hx

theorem bitAt_driveGeneric_other {m : PinMap} {o : OutFile} (h : OutFile.wf o = true) (b : Byte) {q : PinPos}
    (hq : q ∉ m.data) : bitAt (o.driveGeneric m b) q = bitAt o q := by
  rw [driveGeneric_eq]
  exact bitAt_writePins_of_notMem _ _ h (by rwa [map_fst_zipIdx])

/-! ## The data byte under the direct strategy -/

/-- One masked write for each register of a list without repetition. -/
theorem read_foldl_write (f : Nat → Nat → Nat) {ports : List Nat} (hp : ports.Nodup) {o : OutFile}
    (h : OutFile.wf o = true) (q : Nat) :
    OutFile.read (ports.foldl (fun o p => o.write p (f p (o.read p))) o) q =
      if q ∈ ports then f q (o.read q) else o.read q := by
  induction ports generalizing o with
  | nil => rfl
  | cons p ports ih =>
    obtain ⟨hnot, hp⟩ := List.nodup_cons.1 hp
    rw [List.foldl_cons, ih hp (wf_write h _ _), read_write h]
    by_cases hq : q = p
    · subst hq
      simp [hnot]
    · simp [hq]

theorem testBit_dataMask (m : PinMap) (q : PinPos) :
    (dataMask m q.port).testBit q.bit = decide (q ∈ m.data) := by
  have h := testBit_foldl_setBit (fun _ => true) (fun x : PinPos × Nat => x.1.bit) (dataGroup m q.port) 0 q.bit
  simp only [if_true, Nat.zero_testBit, Bool.false_or, Bool.and_true] at h
  rw [dataMask, h, Bool.eq_iff_iff, decide_eq_true_eq]
  conv_rhs => rw [← map_fst_zipIdx m.data]
  simp only [dataGroup, List.any_filter, List.any_eq_true, Bool.and_eq_true, beq_iff_eq, List.mem_map, pinPos_eq_iff]

theorem testBit_directPattern (m : PinMap) (q : PinPos) (b : Byte) :
    (directPattern m q.port b).testBit q.bit = true ↔ ∃ x ∈ m.data.zipIdx, x.1 = q ∧ b.getLsbD x.2 = true := by
  rw [directPattern_eq_bitTestPattern, testBit_bitTestPattern, any_dataGroup]
  simp only [List.any_eq_true, Bool.and_eq_true, beq_iff_eq, pinPos_eq_iff]

theorem bitAt_driveDirect {m : PinMap} {o : OutFile} (h : OutFile.wf o = true) (b : Byte) (q : PinPos) :
    bitAt (o.driveDirect m b) q =
      ((bitAt o q && !decide (q ∈ m.data)) || (directPattern m q.port b).testBit q.bit) := by
  have hread := read_foldl_write (fun p v => andNot v (dataMask m p) ||| directPattern m p b)
    (List.nodup_dedup (m.data.map PinPos.port)) h q.port
  rw [bitAt, OutFile.driveDirect, dataPorts, hread]
  split
  · rw [Nat.testBit_or, testBit_andNot, testBit_dataMask]; rfl
  · next hport =>
    have hq : q ∉ m.data := fun hm => hport (List.mem_dedup.2 (List.mem_map_of_mem hm))
    have hpat : (directPattern m q.port b).testBit q.bit = false := by
      rw [Bool.eq_false_iff, Ne, testBit_directPattern]
      rintro ⟨x, hx, rfl, -⟩
      exact hq (map_fst_zipIdx m.data ▸ List.mem_map_of_mem hx)
    simp [hq, hpat, bitAt]

/-- With a place of its own, a line's number is fixed by its place. -/
theorem zipIdx_inj {l : List PinPos} (hl : l.Nodup) {x y : PinPos × Nat} (hx : x ∈ l.zipIdx) (hy : y ∈ l.zipIdx)
    (h : x.1 = y.1) : x = y :=
  List.inj_on_of_nodup_map (by rwa [map_fst_zipIdx]) hx hy h

theorem bitAt_driveDirect_line {m : PinMap} (hm : m.data.Nodup) {o : OutFile} (h : OutFile.wf o = true) (b : Byte)
    {x : PinPos × Nat} (hx : x ∈ m.data.zipIdx) : bitAt (o.driveDirect m b) x.1 = b.getLsbD x.2 := by
  have hmem : x.1 ∈ m.data := map_fst_zipIdx m.data ▸ List.mem_map_of_mem hx
  have hpat : (directPattern m x.1.port b).testBit x.1.bit = b.getLsbD x.2 := by
    rw [Bool.eq_iff_iff, testBit_directPattern]
    exact ⟨fun ⟨y, hy, he, hb⟩ => zipIdx_inj hm hy hx he ▸ hb, fun hb => ⟨x, hx, rfl, hb⟩⟩
  simp [bitAt_driveDirect h, hmem, hpat]

theorem bitAt_driveDirect_other {m : PinMap} {o : OutFile} (h : OutFile.wf o = true) (b : Byte) {q : PinPos}
    (hq : q ∉ m.data) : bitAt (o.driveDirect m b) q = bitAt o q := by
  have hpat : (directPattern m q.port b).testBit q.bit = false := by
    rw [Bool.eq_false_iff, Ne, testBit_directPattern]
    rintro ⟨x, hx, rfl, -⟩
    exact hq (map_fst_zipIdx m.data ▸ List.mem_map_of_mem hx)
  simp [bitAt_driveDirect h, hq, hpat]

/-! ## The two strategies -/

theorem wf_driveGeneric {o : OutFile} (h : OutFile.wf o = true) (m : PinMap) (b : Byte) :
    OutFile.wf (o.driveGeneric m b) = true := wf_writePins _ _ _ h

theorem wf_driveDirect {o : OutFile} (h : OutFile.wf o = true) (m : PinMap) (b : Byte) :
    OutFile.wf (o.driveDirect m b) = true := wf_foldl _ (fun _ _ ho => wf_write ho _ _) _ h

/-- Files in canonical form with the same bits are the same. -/
theorem outFile_ext {a b : OutFile} (ha : OutFile.wf a = true) (hb : OutFile.wf b = true)
    (h : ∀ q, bitAt a q = bitAt b q) : a = b :=
  wf_ext ha hb fun p => Nat.eq_of_testBit_eq fun k => h ⟨p, k⟩

/-- Where the lines have places of their own, both strategies leave the same registers (R120). -/
theorem driveGeneric_eq_driveDirect {m : PinMap} (hm : m.data.Nodup) {o : OutFile} (h : OutFile.wf o = true)
    (b : Byte) : o.driveGeneric m b = o.driveDirect m b := by
  refine outFile_ext (wf_driveGeneric h m b) (wf_driveDirect h m b) fun q => ?_
  by_cases hq : q ∈ m.data
  · obtain ⟨x, hx, rfl⟩ := List.mem_map.1 ((map_fst_zipIdx m.data).symm ▸ hq)
    rw [bitAt_driveGeneric_line hm h b hx, bitAt_driveDirect_line hm h b hx]
  · rw [bitAt_driveGeneric_other h b hq, bitAt_driveDirect_other h b hq]

theorem bitAt_driveData_line {c : Cfg} (hm : c.pinmap.data.Nodup) {o : OutFile} (h : OutFile.wf o = true) (b : Byte)
    {x : PinPos × Nat} (hx : x ∈ c.pinmap.data.zipIdx) : bitAt (o.driveData c b) x.1 = b.getLsbD x.2 := by
  unfold OutFile.driveData
  split
  · exact bitAt_driveGeneric_line hm h b hx
  · exact bitAt_driveDirect_line hm h b hx

theorem bitAt_driveData_other {c : Cfg} {o : OutFile} (h : OutFile.wf o = true) (b : Byte) {q : PinPos}
    (hq : q ∉ c.pinmap.data) : bitAt (o.driveData c b) q = bitAt o q := by
  unfold OutFile.driveData
  split
  · exact bitAt_driveGeneric_other h b hq
  · exact bitAt_driveDirect_other h b hq

/-! ## Places of their own -/

theorem places_eq (m : PinMap) (mode : ResetMode) : m.places mode = (signals mode).map (place m) ++ m.data := by
  cases mode <;> rfl

/-- Each signal of the mapping in force has a place of its own (R117). -/
theorem pinmap_nodup {c : Cfg} (h : c.pinsOk = true) :
    ((signals c.resetMode).map (place c.pinmap) ++ c.pinmap.data).Nodup := by
  obtain ⟨hbase, haddOn⟩ := Bool.and_eq_true_iff.1 h
  rw [← places_eq, Cfg.pinmap]
  split
  · exact of_decide_eq_true haddOn
  · exact of_decide_eq_true hbase

/-! ## The outputs follow the pins -/

/-- At the place of each signal the block has, the output register holds the level of its pin (R120). -/
structure Follows (c : Cfg) (o : OutFile) (p : Pins) : Prop where
  form : OutFile.wf o = true
  control : ∀ sg ∈ signals c.resetMode, bitAt o (place c.pinmap sg) = p.get sg
  data : ∀ x ∈ c.pinmap.data.zipIdx, bitAt o x.1 = p.d.getLsbD x.2

@[simp] theorem pins_get_set (p : Pins) (s : Signal) (v : Level) (r : Signal) :
    (p.set s v).get r = if r = s then v else p.get r := by
  cases s <;> cases r <;> rfl

@[simp] theorem pins_set_d (p : Pins) (s : Signal) (v : Level) : (p.set s v).d = p.d := by cases s <;> rfl

theorem pins_get_with_d (p : Pins) (b : Byte) (s : Signal) : Pins.get { p with d := b } s = p.get s := by
  cases s <;> rfl

/-- The idle level of a signal the block has does not depend on the pins before. -/
theorem get_idle {c : Cfg} {sg : Signal} (h : sg ∈ signals c.resetMode) (p q : Pins) :
    (p.idle c).get sg = (q.idle c).get sg := by
  cases sg with
  | rst =>
    cases hm : c.resetMode with
    | pulsed => simp [Pins.get, Pins.idle, hm]
    | hardwired => simp [hm, signals] at h
  | _ => rfl

section Follows

variable {c : Cfg} (hok : c.pinsOk = true)
include hok

theorem Follows.sig {o : OutFile} {p : Pins} (h : Follows c o p) {s : Signal} (hs : s ∈ signals c.resetMode)
    (v : Level) : Follows c (o.setSig c s v) (p.set s v) := by
  obtain ⟨hctrl, -, hdisj⟩ := List.nodup_append.1 (pinmap_nodup hok)
  refine ⟨wf_writePin h.form _ _, fun sg hsg => ?_, fun x hx => ?_⟩
  · rw [OutFile.setSig, bitAt_writePin h.form, pins_get_set]
    by_cases he : sg = s
    · simp [he]
    · have hne : place c.pinmap sg ≠ place c.pinmap s := fun hp => he (List.inj_on_of_nodup_map hctrl hsg hs hp)
      rw [if_neg hne, if_neg he, h.control sg hsg]
  · have hmem : x.1 ∈ c.pinmap.data := map_fst_zipIdx c.pinmap.data ▸ List.mem_map_of_mem hx
    have hne : x.1 ≠ place c.pinmap s := fun hp => hdisj _ (List.mem_map_of_mem hs) _ hmem hp.symm
    rw [OutFile.setSig, bitAt_writePin h.form, if_neg hne, pins_set_d, h.data x hx]

theorem Follows.driveData {o : OutFile} (hform : OutFile.wf o = true) {p : Pins}
    (hc : ∀ sg ∈ signals c.resetMode, bitAt o (place c.pinmap sg) = p.get sg) (b : Byte) :
    Follows c (o.driveData c b) { p with d := b } := by
  obtain ⟨-, hdata, hdisj⟩ := List.nodup_append.1 (pinmap_nodup hok)
  refine ⟨wf_driveData hform c b, fun sg hsg => ?_, fun x hx => bitAt_driveData_line hdata hform b hx⟩
  have hnot : place c.pinmap sg ∉ c.pinmap.data := fun hm => hdisj _ (List.mem_map_of_mem hsg) _ hm rfl
  rw [bitAt_driveData_other hform b hnot, hc sg hsg]
  exact (pins_get_with_d p b sg).symm

/-- `Configure()` makes the outputs follow, whatever they held (R112). -/
theorem Follows.configure {o : OutFile} (hform : OutFile.wf o = true) (p : Pins) :
    Follows c (o.configure c Pins.undriven) (p.idle c) := by
  obtain ⟨hctrl, -, -⟩ := List.nodup_append.1 (pinmap_nodup hok)
  refine Follows.driveData hok (wf_writePins _ _ _ hform) (p := p.idle c) (fun sg hsg => ?_) c.dIdle
  exact (bitAt_writePins_of_mem _ _ hform hctrl hsg).trans (get_idle hsg _ _)

/-- An event of a signal the block has. -/
def Event.onSignals (mode : ResetMode) : Event → Prop
  | .sig s _ => s ∈ signals mode
  | _ => True

theorem Follows.event {o : OutFile} {p : Pins} (h : Follows c o p) {e : Event} (he : e.onSignals c.resetMode) :
    Follows c (outAfter c o e) (pinsAfter c p e) := by
  cases e with
  | cfg => exact .configure hok h.form p
  | sig s v => exact h.sig hok he v
  | data b => exact .driveData hok h.form h.control b
  | wait t => exact h

theorem Follows.events {evs : List Event} (he : ∀ e ∈ evs, e.onSignals c.resetMode) {o : OutFile} {p : Pins}
    (h : Follows c o p) : Follows c (evs.foldl (outAfter c) o) (evs.foldl (pinsAfter c) p) := by
  induction evs generalizing o p with
  | nil => exact h
  | cons e es ih =>
    obtain ⟨he1, hes⟩ := List.forall_mem_cons.1 he
    exact ih hes (h.event hok he1)

end Follows

theorem Event.onSignals_of_isBus (mode : ResetMode) : ∀ {e : Event}, e.isBus = true → e.onSignals mode
  | .sig .cs _, _ | .sig .dc _, _ | .sig .wr _, _ => by cases mode <;> simp [Event.onSignals, signals]
  | .data _, _ => trivial

/-- `BEGIN` moves RST only where the block has it (44_lifecycle R202). -/
theorem onSignals_beginEvents (c : Cfg) : ∀ e ∈ beginEvents c, e.onSignals c.resetMode := by
  intro e he
  simp only [beginEvents_eq, List.mem_cons, List.mem_append] at he
  rcases he with rfl | (hpulse | hinit) | hfill
  · trivial
  · unfold pulseEvents at hpulse
    split at hpulse
    · next hm =>
      simp only [resetPulse, List.mem_cons, List.not_mem_nil, or_false] at hpulse
      rcases hpulse with rfl | rfl | rfl <;> simp [Event.onSignals, hm, signals]
    · cases hpulse
  · rcases mem_initEvents hinit with hbus | hwait
    · exact Event.onSignals_of_isBus _ hbus
    · cases e with
      | wait t => trivial
      | _ => cases hwait
  · exact Event.onSignals_of_isBus _ (List.all_eq_true.1 (isBus_rectFillEvents ..) e hfill)

/-! ## One event under the two strategies -/

/-- `Configure()` is a run of single-pin writes, the same under each strategy, and the data byte (R112). -/
theorem configure_withStrategy (o : OutFile) (c : Cfg) (p : Pins) (st : PortStrategy) :
    o.configure { c with portStrategy := st } p =
      (writePins (place c.pinmap) (fun s => (p.idle c).get s) (signals c.resetMode) o).driveData
        { c with portStrategy := st } c.dIdle := rfl

theorem driveData_strategies {c : Cfg} (hok : c.pinsOk = true) {o : OutFile} (h : OutFile.wf o = true) (b : Byte) :
    o.driveData { c with portStrategy := .generic } b = o.driveData { c with portStrategy := .direct } b :=
  driveGeneric_eq_driveDirect (List.nodup_append.1 (pinmap_nodup hok)).2.1 h b

theorem outAfter_strategies {c : Cfg} (hok : c.pinsOk = true) {o : OutFile} (h : OutFile.wf o = true) (e : Event) :
    outAfter { c with portStrategy := .generic } o e = outAfter { c with portStrategy := .direct } o e := by
  cases e with
  | cfg =>
    exact (configure_withStrategy o c _ _).trans
      ((driveData_strategies hok (wf_writePins _ _ _ h) c.dIdle).trans (configure_withStrategy o c _ _).symm)
  | sig s v => rfl
  | data b => exact driveData_strategies hok h b
  | wait t => rfl

/-! ## The outputs of a machine -/

theorem portInv_iff {s : State} (hl : s.life = .ready) : PortInv s ↔ Follows s.cfg s.out s.pins :=
  ⟨fun h => ⟨h.form, h.control hl, h.data hl⟩,
    fun h => ⟨by rw [hl]; exact nofun, h.form, fun _ => h.control, fun _ => h.data⟩⟩

theorem PortInv.congr {s t : State} (h : PortInv s) (hc : t.cfg = s.cfg) (hl : t.life = s.life)
    (ho : t.out = s.out) (hp : t.pins = s.pins) : PortInv t := by
  obtain ⟨hsettled, hform, hcontrol, hdata⟩ := h
  refine ⟨?_, ?_, ?_, ?_⟩
  · rwa [hl]
  · rwa [ho]
  · rwa [hl, hc, ho, hp]
  · rwa [hl, hc, ho, hp]

theorem portInv_of_exec {i : Instr} {s t : State} (hv : s.cfg.valid = true) (h : PortInv s)
    (he : exec i s = .next t) : PortInv t := by
  have hran := exec_ran he
  have hok := valid_pinsOk hv
  by_cases hb : i = .begin
  · subst hb
    have hl : t.life = .ready := hran.life
    obtain ⟨-, hrest⟩ := List.forall_mem_cons.1 (beginEvents_eq s.cfg ▸ onSignals_beginEvents s.cfg)
    rw [portInv_iff hl, hran.cfg, hran.out, hran.pins, commandEvents.eq_def]
    simp only [beginEvents_eq]
    exact Follows.events hok hrest (.configure hok h.form s.pins)
  by_cases hw : i = .whoami
  · subst hw
    cases he
    exact h.congr rfl rfl rfl rfl
  · have hl := ready_of_exec he hb hw
    rw [portInv_iff (by rw [hran.life, lifeAfter_of_ne hb, hl]), hran.cfg, hran.out, hran.pins]
    exact ((portInv_iff hl).1 h).events hok fun e hm =>
      Event.onSignals_of_isBus _ (List.all_eq_true.1 (isBus_commandEvents _ _ hb) e hm)

/-! ## The statements -/

/-- Settles O50: each event writes its signal's place and no other signal's, under either strategy. -/
theorem everyStepKeepsThePorts : Obligations.EveryStepKeepsThePorts := by
  intro s t hv h hstep
  obtain ⟨-, rfl⟩ | ⟨-, -, rfl⟩ | ⟨w, rest, i, u, -, -, -, he, rfl⟩ := step_cases hstep
  · rw [stepBusy_frame]
    exact h.congr rfl rfl rfl rfl
  · exact h
  · have ha : PortInv (s.accept w rest) := h.congr rfl rfl rfl rfl
    exact (portInv_of_exec (s := s.accept w rest) hv ha he).congr rfl rfl rfl rfl

/-- Settles O55: the strategies differ in how they drive the data byte, and leave the same bits there. -/
theorem strategiesAreIndistinguishable : Obligations.StrategiesAreIndistinguishable := by
  intro c o p evs hok hwf
  refine ⟨?_, ?_⟩
  · induction evs generalizing o with
    | nil => rw [List.foldl_nil, List.foldl_nil]
    | cons e es ih =>
      rw [List.foldl_cons, List.foldl_cons, outAfter_strategies hok hwf e]
      exact ih _ (wf_outAfter hwf _ e)
  · have hevent : pinsAfter { c with portStrategy := .generic } = pinsAfter { c with portStrategy := .direct } := by
      funext p e
      cases e <;> rfl
    rw [hevent]

end Sys2Proof.Machine

/-! SUPPORT. What the controller reads from each command (20_memory R61, R62): a reading for every procedure from
quiet wires with no word pending, and the index it leaves selected. -/

namespace Sys2Proof.Machine

/-! ## L1 of the bus commands -/

theorem sends_nil (c : Cfg) (P : Pins → Prop) : Sends c P [] [] :=
  ⟨List.not_mem_nil, fun _ _ => rfl, fun _ hp => hp⟩

theorem sends_dataWrite (c : Cfg) (hi lo : Byte) : Sends c (Quiet c) (dataWrite c hi lo) [.dat hi, .dat lo] :=
  (sends_dataBytes c hi lo).dataBracket

theorem sends_commandDataWrite (c : Cfg) (cmd : Word) (hi lo : Byte) :
    Sends c (Quiet c) (commandDataWrite c cmd hi lo) (commandItems c cmd ++ [.dat hi, .dat lo]) where
  noCfg := cfg_notMem_commandDataWrite c cmd hi lo
  reads p hp := l1_commandDataWrite c p hp cmd hi lo
  keeps p hp := by rw [pins_commandDataWrite]; exact ⟨rfl, rfl, hp.rd⟩

/-- The high byte of a command is latched only with two transfers (30_encoding R90). -/
theorem commandItems_eq (c : Cfg) (cmd : Word) :
    commandItems c cmd = (if c.cmdXfers = .two then [.cmd (hiByte cmd)] else []) ++ [.cmd (loByte cmd)] := by
  unfold commandItems
  cases c.cmdXfers <;> rfl

theorem dataItems_append (hi lo : Byte) : dataItems (hi ++ lo) = [.dat hi, .dat lo] := by
  rw [dataItems, hiByte, loByte, extractLsb'_append_high, extractLsb'_append_low]

/-- The bytes of a fill: its window and its pixels. -/
def rectFillItems (c : Cfg) (o : BitVec 2) (x1 y1 x2 y2 color : Word) : List L1Item :=
  let b := windowBounds c o (minWord x1 x2) (minWord y1 y2) (maxWord x1 x2) (maxWord y1 y2)
  boundItems c b.1 b.2.1 b.2.2.1 b.2.2.2 ++ commandItems c (c.regmap.ramData.setWidth 16) ++
    (List.replicate (fillCount (minWord x1 x2) (minWord y1 y2) (maxWord x1 x2) (maxWord y1 y2))
      (dataItems color)).flatten

theorem sends_rectFillEvents (c : Cfg) (o : BitVec 2) (x1 y1 x2 y2 color : Word) :
    Sends c (Quiet c) (rectFillEvents c o x1 y1 x2 y2 color) (rectFillItems c o x1 y1 x2 y2 color) :=
  (sends_windowEvents ..).append (sends_fillEvents ..)

/-- The pixels of a fill in the framing given, whatever the configuration's own is (43_geometry R184). -/
theorem sends_fillEvents_framed (c : Cfg) (b : Bool) (color : Word) (n : Nat) :
    Sends c (Quiet c) (fillEvents { c with fillOneBracket := b } color n)
      (List.replicate n (dataItems color)).flatten := by
  have hpixel : Sends c (Streaming c) (dataBytes (hiByte color) (loByte color)) (dataItems color) :=
    sends_dataBytes c _ _
  rw [fillEvents_eq_dataBracket]
  cases b with
  | true => exact (hpixel.fillLoop n).dataBracket
  | false => exact hpixel.dataBracket.fillLoop n

theorem sends_rectFillEvents_framed (c : Cfg) (b : Bool) (o : BitVec 2) (x1 y1 x2 y2 color : Word) :
    Sends c (Quiet c) (rectFillEvents { c with fillOneBracket := b } o x1 y1 x2 y2 color)
      (rectFillItems c o x1 y1 x2 y2 color) :=
  (sends_windowEvents c ..).append (sends_fillEvents_framed c b color _)

/-! ## Readings -/

/-- From quiet wires, no word pending and `idx` selected, the events read as `out idx` at L2; then the wires are
quiet again, no word is pending and `after idx` is selected. -/
def Reads (c : Cfg) (evs : List Event) (out : Option Word → List L2Item) (after : Option Word → Option Word) :
    Prop :=
  ∃ items, Sends c (Quiet c) evs items ∧
    ∀ idx, l2From c (.whole idx) items = out idx ∧ l2After c (.whole idx) items = .whole (after idx)

theorem Reads.append {c : Cfg} {a b : List Event} {out out' : Option Word → List L2Item}
    {after after' : Option Word → Option Word} (ha : Reads c a out after) (hb : Reads c b out' after') :
    Reads c (a ++ b) (fun idx => out idx ++ out' (after idx)) (fun idx => after' (after idx)) := by
  obtain ⟨x, hx, hxl⟩ := ha
  obtain ⟨y, hy, hyl⟩ := hb
  refine ⟨x ++ y, hx.append hy, fun idx => ?_⟩
  rw [l2From_append, l2After_append, (hxl idx).1, (hxl idx).2, (hyl _).1, (hyl _).2]
  exact ⟨rfl, rfl⟩

theorem reads_nil (c : Cfg) : Reads c [] (fun _ => []) id := ⟨[], sends_nil c _, fun _ => ⟨rfl, rfl⟩⟩

theorem Writes.reads {c : Cfg} {evs : List Event} {items : List L1Item} {out : List L2Item} {r : Word}
    (hw : Writes c items out r) (hs : Sends c (Quiet c) evs items) : Reads c evs (fun _ => out) fun _ => some r :=
  ⟨items, hs, hw⟩

theorem reads_commandWrite (c : Cfg) (cmd : Word) :
    Reads c (commandWrite c cmd) (fun _ => [.sel (selectedIndex c cmd)]) fun _ => some (selectedIndex c cmd) :=
  ⟨_, sends_commandWrite c cmd, fun idx => l2_command c idx cmd⟩

/-- The reading of a data word: a write to the index selected before it, or two `BAD` (20_memory R62). -/
def dataWrites (v : Word) : Option Word → List L2Item
  | some r => [.write r v]
  | none => [.bad, .bad]

theorem l2_dataItems (c : Cfg) (idx : Option Word) (v : Word) :
    l2From c (.whole idx) (dataItems v) = dataWrites v idx ∧
      l2After c (.whole idx) (dataItems v) = .whole idx := by
  cases idx with
  | none => exact ⟨rfl, rfl⟩
  | some r => exact l2_data c r v

theorem reads_dataWrite (c : Cfg) (hi lo : Byte) :
    Reads c (dataWrite c hi lo) (dataWrites (hi ++ lo)) id :=
  ⟨_, sends_dataWrite c hi lo, fun idx => dataItems_append hi lo ▸ l2_dataItems c idx (hi ++ lo)⟩

theorem reads_commandDataWrite (c : Cfg) (cmd : Word) (hi lo : Byte) :
    Reads c (commandDataWrite c cmd hi lo)
      (fun _ => [.sel (selectedIndex c cmd), .write (selectedIndex c cmd) (hi ++ lo)])
      fun _ => some (selectedIndex c cmd) := by
  refine ⟨_, sends_commandDataWrite c cmd hi lo, fun idx => ?_⟩
  obtain ⟨hc, hc'⟩ := l2_command c idx cmd
  obtain ⟨hd, hd'⟩ := l2_data c (selectedIndex c cmd) (hi ++ lo)
  rw [← dataItems_append, l2From_append, l2After_append, hc, hc', hd, hd']
  exact ⟨rfl, rfl⟩

theorem reads_regWrite (c : Cfg) (reg : Byte) (val : Word) :
    Reads c (regWrite c reg val) (fun _ => registerWrites reg val) fun _ => some (reg.setWidth 16) :=
  (writes_registerItems c reg val).reads (sends_regWrite c reg val)

theorem reads_windowEvents (c : Cfg) (hs he vs ve : Word) :
    Reads c (windowEvents c hs he vs ve) (fun _ => windowWrites c hs he vs ve)
      fun _ => some (c.regmap.ramData.setWidth 16) :=
  (writes_windowItems c hs he vs ve).reads (sends_windowEvents c hs he vs ve)

/-- The reading of `SETPOINT` (43_geometry R180). -/
def pointWrites (c : Cfg) (px py color : Word) : List L2Item :=
  registerWrites c.regmap.xRamAddr px ++ registerWrites c.regmap.yRamAddr py ++ registerWrites c.regmap.ramData color

theorem reads_pointEvents (c : Cfg) (px py color : Word) :
    Reads c (pointEvents c px py color) (fun _ => pointWrites c px py color)
      fun _ => some (c.regmap.ramData.setWidth 16) :=
  ((reads_regWrite ..).append (reads_regWrite ..)).append (reads_regWrite ..)

/-- A window and then pixels: they go to the RAM data port that the window's last command selects. -/
theorem reads_window_fill (c : Cfg) (hs he vs ve color : Word) (n : Nat) :
    Reads c (windowEvents c hs he vs ve ++ fillEvents c color n)
      (fun _ => windowWrites c hs he vs ve ++ pixelWrites c color n)
      fun _ => some (c.regmap.ramData.setWidth 16) :=
  ((writes_windowItems c hs he vs ve).followed (l2_data_replicate c _ color n)).reads
    ((sends_windowEvents c hs he vs ve).append (sends_fillEvents c color n))

/-! ## Commands -/

/-- The index a command leaves selected (70_reset_and_hazards R264). -/
def indexAfter (c : Cfg) : Instr → Option Word → Option Word
  | .wrcmd cmd, _ => some (selectedIndex c cmd)
  | .wrcmddata cmd _ _, _ => some (selectedIndex c cmd)
  | .wrreg reg _, _ => some (reg.setWidth 16)
  | .setbacklight _, _ => some (c.regmap.sleepMode.setWidth 16)
  | .setwindow .., _ => some (c.regmap.ramData.setWidth 16)
  | .closewindow, _ => some (c.regmap.ramData.setWidth 16)
  | .setpoint .., _ => some (c.regmap.ramData.setWidth 16)
  | .fastfill .., _ => some (c.regmap.ramData.setWidth 16)
  | .begin, _ => some (c.regmap.ramData.setWidth 16)
  | .wrdata _, idx => idx
  | .wrdata88 .., idx => idx
  | .setorient _, idx => idx
  | .orientxy .., idx => idx
  | .setintensity _, idx => idx
  | .whoami, idx => idx
  | .readtouch, idx => idx

/-- The reading of a window by its bounds (43_geometry R176). -/
def boundsWrites (c : Cfg) (b : Word × Word × Word × Word) : List L2Item :=
  windowWrites c b.1 b.2.1 b.2.2.1 b.2.2.2

/-- The reading of `BEGIN` (44_lifecycle R200). -/
def beginWrites (c : Cfg) : List L2Item :=
  initWrites c ++ (windowWrites c 0 (BitVec.ofNat 16 (c.w - 1)) 0 (BitVec.ofNat 16 (c.h - 1)) ++
    pixelWrites c c.clearColor (c.w * c.h))

/-- The reading of a command with `idx` selected before it. -/
def commandWrites (c : Cfg) (o : BitVec 2) : Instr → Option Word → List L2Item
  | .wrcmd cmd, _ => [.sel (selectedIndex c cmd)]
  | .wrdata val, idx => dataWrites val idx
  | .wrcmddata cmd hi lo, _ => [.sel (selectedIndex c cmd), .write (selectedIndex c cmd) (hi ++ lo)]
  | .wrdata88 hi lo, idx => dataWrites (hi ++ lo) idx
  | .wrreg reg val, _ => registerWrites reg val
  | .setwindow x1 y1 x2 y2, _ => boundsWrites c (windowBounds c o x1 y1 x2 y2)
  | .closewindow, _ => boundsWrites c (windowBounds c o 0 0 (lastX c o) (lastY c o))
  | .setpoint x y color, _ => pointWrites c (physX c o x y) (physY c o x y) color
  | .fastfill x1 y1 x2 y2 color, _ =>
    boundsWrites c (windowBounds c o (minWord x1 x2) (minWord y1 y2) (maxWord x1 x2) (maxWord y1 y2)) ++
      pixelWrites c color (side x1 x2 * side y1 y2)
  | .begin, _ => beginWrites c
  | .setbacklight flag, _ => registerWrites c.regmap.sleepMode (if flag = 1 then c.sleepOut else c.sleepIn)
  | .setorient _, _ => []
  | .orientxy .., _ => []
  | .setintensity _, _ => []
  | .whoami, _ => []
  | .readtouch, _ => []

/-- Every command but `BEGIN` has its reading from quiet wires. -/
theorem reads_commandEvents (c : Cfg) (o : BitVec 2) {i : Instr} (h : i ≠ .begin) :
    Reads c (commandEvents c o i) (commandWrites c o i) (indexAfter c i) := by
  cases i with
  | wrcmd cmd => exact reads_commandWrite c cmd
  | wrdata val =>
    have hval : commandWrites c o (.wrdata val) = dataWrites (hiByte val ++ loByte val) :=
      funext fun idx => by rw [hiByte_append_loByte]; rfl
    rw [hval]
    exact reads_dataWrite c _ _
  | wrcmddata cmd hi lo => exact reads_commandDataWrite c cmd hi lo
  | wrdata88 hi lo => exact reads_dataWrite c hi lo
  | wrreg reg val => exact reads_regWrite c reg val
  | setbacklight flag => exact reads_regWrite c _ _
  | setwindow | closewindow => exact reads_windowEvents ..
  | setpoint x y color => exact reads_pointEvents ..
  | fastfill x1 y1 x2 y2 color =>
    have hn := fillCount_sorted x1 y1 x2 y2
    simp only [commandEvents, rectFillEvents, hn]
    exact reads_window_fill ..
  | setorient | orientxy | setintensity | whoami | readtouch => exact reads_nil c
  | begin => exact absurd rfl h

/-! ## `BEGIN` -/

/-- A run of events that latches nothing. -/
theorem reads_pulseEvents (c : Cfg) : Reads c (pulseEvents c) (fun _ => []) id := by
  refine ⟨[], ⟨?_, fun p _ => ?_, (lawful_pulseEvents c).keeps⟩, fun _ => ⟨rfl, rfl⟩⟩ <;> unfold pulseEvents <;>
    cases c.resetMode
  · exact List.not_mem_nil
  · exact cfg_notMem_resetPulse c
  · rfl
  · rfl

/-- The reading of a step of `INIT_SEQ` (42_register_interface R154). -/
def initStepWrites : InitStep → List L2Item
  | .write reg val => registerWrites reg val
  | .delay _ => []

theorem initWrites_eq (c : Cfg) : initWrites c = c.initSeq.flatMap initStepWrites :=
  congrArg (List.flatMap · c.initSeq) (funext fun st => by cases st <;> rfl)

theorem reads_initStepEvents (c : Cfg) (st : InitStep) :
    ∃ after, Reads c (initStepEvents c st) (fun _ => initStepWrites st) after := by
  cases st with
  | write reg val => exact ⟨_, reads_regWrite c reg val⟩
  | delay t => exact ⟨id, [], ⟨by simp [initStepEvents], fun _ _ => rfl, fun _ hp => hp⟩, fun _ => ⟨rfl, rfl⟩⟩

theorem reads_flatMap_initStepEvents (c : Cfg) (l : List InitStep) :
    ∃ after, Reads c (l.flatMap (initStepEvents c)) (fun _ => l.flatMap initStepWrites) after := by
  induction l with
  | nil => exact ⟨id, reads_nil c⟩
  | cons st l ih =>
    obtain ⟨after, hst⟩ := reads_initStepEvents c st
    obtain ⟨after', hl⟩ := ih
    exact ⟨_, hst.append hl⟩

/-- What `BEGIN` sends after `CFG`, from quiet wires. -/
theorem reads_beginEvents_tail {c : Cfg} (hc : c.sizeOk = true) :
    Reads c (pulseEvents c ++ initEvents c ++ rectFillEvents c 1 0 0 (lastX c 1) (lastY c 1) c.clearColor)
      (fun _ => beginWrites c) fun _ => some (c.regmap.ramData.setWidth 16) := by
  obtain ⟨after, hinit⟩ := reads_flatMap_initStepEvents c c.initSeq
  rw [← initWrites_eq] at hinit
  rw [rectFillEvents_fullExtent hc]
  exact ((reads_pulseEvents c).append hinit).append (reads_window_fill ..)

/-- The L1 reading of a trace that starts with `CFG`. -/
theorem l1_cfg_cons {c : Cfg} (hv : c.valid = true) {evs : List Event} {items : List L1Item}
    (h : Sends c (Quiet c) evs items) : l1 c (.cfg :: evs) = items := h.reads _ (quiet_idle hv _)

theorem l2_beginEvents {c : Cfg} (hv : c.valid = true) :
    l2 c (beginEvents c) = beginWrites c ∧
      l2After c L2State.start (l1 c (beginEvents c)) = .whole (some (c.regmap.ramData.setWidth 16)) := by
  obtain ⟨items, hs, hl⟩ := reads_beginEvents_tail (valid_sizeOk hv)
  rw [beginEvents_eq, l2, l1_cfg_cons hv hs]
  exact hl none

/-! ## A machine -/

/-- The index selected at the end of a trace (20_memory R62). -/
def selected (s : State) : Option Word := (l2After s.cfg L2State.start (l1 s.cfg s.trace)).idx

theorem WholeWords.l2After_selected {s : State} (h : WholeWords s) :
    l2After s.cfg L2State.start (l1 s.cfg s.trace) = .whole (selected s) := by
  obtain ⟨idx, hidx⟩ := h.l2After_eq
  rw [selected, hidx]
  rfl

theorem wholeWords_of_l2After {s : State} {idx : Option Word}
    (h : l2After s.cfg L2State.start (l1 s.cfg s.trace) = .whole idx) : WholeWords s := by
  rw [WholeWords, h]
  exact ⟨rfl, rfl⟩

/-- Events sent in `Ready` with no word pending add their reading and select what it selects. -/
theorem Reads.trace_append {s : State} {evs : List Event} {out : Option Word → List L2Item}
    {after : Option Word → Option Word} (he : Reads s.cfg evs out after) (h : TraceInv s) (hw : WholeWords s)
    (hl : s.life = .ready) :
    l2 s.cfg (s.trace ++ evs) = l2 s.cfg s.trace ++ out (selected s) ∧
      l2After s.cfg L2State.start (l1 s.cfg (s.trace ++ evs)) = .whole (after (selected s)) := by
  obtain ⟨items, hs, hread⟩ := he
  rw [l2, l1_trace_append h hl hs, l2From_append, l2After_append, hw.l2After_selected, (hread _).1, (hread _).2]
  exact ⟨rfl, rfl⟩

/-- The reading of any accepted command, and what it leaves selected. -/
theorem l2_of_exec {i : Instr} {s t : State} (hv : i = .begin → s.cfg.valid = true) (h : TraceInv s)
    (hw : WholeWords s) (he : exec i s = .next t) :
    l2 s.cfg t.trace = l2 s.cfg s.trace ++ commandWrites s.cfg s.orient i (selected s) ∧
      l2After s.cfg L2State.start (l1 s.cfg t.trace) = .whole (indexAfter s.cfg i (selected s)) := by
  by_cases hb : i = .begin
  · subst hb
    obtain ⟨hl, -⟩ := exec_begin_next.1 he
    rw [(exec_ran he).trace, h.fresh hl]
    exact l2_beginEvents (hv rfl)
  by_cases hwho : i = .whoami
  · subst hwho
    cases he
    exact ⟨(List.append_nil _).symm, hw.l2After_selected⟩
  · rw [(exec_ran he).trace]
    exact (reads_commandEvents s.cfg s.orient hb).trace_append h hw (ready_of_exec he hb hwho)

theorem wholeWords_of_exec {i : Instr} {s t : State} (hv : s.cfg.valid = true) (h : TraceInv s)
    (hw : WholeWords s) (he : exec i s = .next t) : WholeWords t := by
  refine wholeWords_of_l2After (idx := indexAfter s.cfg i (selected s)) ?_
  rw [(exec_ran he).cfg]
  exact (l2_of_exec (fun _ => hv) h hw he).2

theorem selected_of_exec {i : Instr} {s t : State} (hv : s.cfg.valid = true) (h : TraceInv s)
    (hw : WholeWords s) (he : exec i s = .next t) :
    (l2After s.cfg L2State.start (l1 s.cfg t.trace)).idx = indexAfter s.cfg i (selected s) := by
  rw [(l2_of_exec (fun _ => hv) h hw he).2]
  rfl

/-! ## Indices of the table -/

theorem listed_of_mem {c : Cfg} {reg : Byte} (h : reg ∈ c.namedRegs) : listed c (reg.setWidth 16) = true :=
  List.any_eq_true.2 ⟨reg, h, beq_self_eq_true _⟩

/-- Every index that a reading selects is in the table of 30_encoding R93. -/
def SelectsListed (c : Cfg) (l : List L2Item) : Prop := ∀ r, .sel r ∈ l → listed c r = true

theorem SelectsListed.append {c : Cfg} {a b : List L2Item} (ha : SelectsListed c a) (hb : SelectsListed c b) :
    SelectsListed c (a ++ b) := fun r hr => (List.mem_append.1 hr).elim (ha r) (hb r)

theorem selectsListed_nil (c : Cfg) : SelectsListed c [] := fun _ hr => nomatch hr

theorem selectsListed_registerWrites {c : Cfg} {reg : Byte} (h : reg ∈ c.namedRegs) (val : Word) :
    SelectsListed c (registerWrites reg val) := by
  intro r hr
  simp only [registerWrites, List.mem_cons, List.not_mem_nil, or_false, reduceCtorEq, L2Item.sel.injEq] at hr
  exact hr ▸ listed_of_mem h

theorem mem_namedRegs_of_window {c : Cfg} {reg : Byte} (h : reg ∈ windowRegs c) : reg ∈ c.namedRegs := by
  simp only [windowRegs, List.mem_append, List.mem_cons, List.not_mem_nil, or_false] at h
  simp only [namedRegs_eq, headRegs, tailRegs, List.mem_append, List.mem_cons, List.not_mem_nil, or_false]
  tauto

theorem ramData_mem_namedRegs (c : Cfg) : c.regmap.ramData ∈ c.namedRegs := by simp [Cfg.namedRegs]

theorem sleepMode_mem_namedRegs (c : Cfg) : c.regmap.sleepMode ∈ c.namedRegs := by simp [Cfg.namedRegs]

theorem selectsListed_windowWrites (c : Cfg) (hs he vs ve : Word) : SelectsListed c (windowWrites c hs he vs ve) := by
  have hreg (reg : Byte) (hmem : reg ∈ windowRegs c) (val : Word) := selectsListed_registerWrites
    (mem_namedRegs_of_window hmem) val
  have hrows : SelectsListed c (if c.vwinPacked then registerWrites c.regmap.vRamPos (packedRows vs ve)
      else registerWrites c.regmap.vRamStart vs ++ registerWrites c.regmap.vRamEnd ve) := by
    split
    · exact hreg _ (by simp [windowRegs]) _
    · next hp => exact (hreg _ (by simp [windowRegs, hp]) _).append (hreg _ (by simp [windowRegs, hp]) _)
  have hram : SelectsListed c [.sel (c.regmap.ramData.setWidth 16)] := by
    intro r hr
    rw [List.mem_singleton, L2Item.sel.injEq] at hr
    exact hr ▸ listed_of_mem (ramData_mem_namedRegs c)
  exact (((((hreg _ (by simp [windowRegs]) _).append (hreg _ (by simp [windowRegs]) _)).append hrows).append
    (hreg _ (by simp [windowRegs]) _)).append (hreg _ (by simp [windowRegs]) _)).append hram

theorem selectsListed_pixelWrites (c : Cfg) (color : Word) (n : Nat) : SelectsListed c (pixelWrites c color n) :=
  fun _ hr => nomatch List.eq_of_mem_replicate hr

theorem selectsListed_dataWrites (c : Cfg) (v : Word) (idx : Option Word) : SelectsListed c (dataWrites v idx) := by
  cases idx <;> simp [SelectsListed, dataWrites]

theorem selectsListed_initStepWrites {c : Cfg} {P : Byte → Prop} (hP : ∀ reg, P reg → reg ∈ c.namedRegs)
    {l : List InitStep} (h : ∀ st ∈ l, WritesReg P st) : SelectsListed c (l.flatMap initStepWrites) := by
  induction l with
  | nil => exact selectsListed_nil c
  | cons st l ih =>
    obtain ⟨⟨reg, val, rfl, hreg⟩, hl⟩ := List.forall_mem_cons.1 h
    exact (selectsListed_registerWrites (hP reg hreg) val).append (ih hl)

theorem selectsListed_initWrites {c : Cfg} (hv : c.valid = true) : SelectsListed c (initWrites c) := by
  obtain ⟨before, after, hshape⟩ := exists_initShape hv
  rw [initWrites_eq, hshape.eq, List.flatMap_append, List.flatMap_cons, List.flatMap_cons]
  exact (selectsListed_initStepWrites (fun reg hr => (plainReg_earlyRegs hv hr).named) hshape.early).append
    ((selectsListed_registerWrites (sleepMode_mem_namedRegs c) _).append
      ((selectsListed_nil c).append (selectsListed_initStepWrites (fun _ hr => hr.named) hshape.late)))

theorem selectsListed_commandWrites {c : Cfg} (hv : c.valid = true) (o : BitVec 2) {i : Instr}
    (h : sendsHostIndex i = false) (idx : Option Word) : SelectsListed c (commandWrites c o i idx) := by
  cases i with
  | wrcmd | wrcmddata | wrreg => cases h
  | wrdata | wrdata88 => exact selectsListed_dataWrites _ _ _
  | setwindow | closewindow => exact selectsListed_windowWrites _ _ _ _ _
  | setpoint x y color =>
    have hx : c.regmap.xRamAddr ∈ windowRegs c := by simp [windowRegs]
    have hy : c.regmap.yRamAddr ∈ windowRegs c := by simp [windowRegs]
    exact ((selectsListed_registerWrites (mem_namedRegs_of_window hx) _).append
      (selectsListed_registerWrites (mem_namedRegs_of_window hy) _)).append
      (selectsListed_registerWrites (ramData_mem_namedRegs c) _)
  | fastfill => exact (selectsListed_windowWrites _ _ _ _ _).append (selectsListed_pixelWrites _ _ _)
  | begin =>
    exact (selectsListed_initWrites hv).append
      ((selectsListed_windowWrites _ _ _ _ _).append (selectsListed_pixelWrites _ _ _))
  | setbacklight => exact selectsListed_registerWrites (sleepMode_mem_namedRegs c) _
  | setorient | orientxy | setintensity | whoami | readtouch => exact selectsListed_nil c

/-! ## The statements -/

/-- Settles O39: each procedure's bytes, from the quiet wires that the trace leaves. -/
theorem busCommandsReadAsTheirBytes : Obligations.BusCommandsReadAsTheirBytes := by
  intro s t h hl c
  have hadd {i : Instr} {items : List L1Item} (he : exec i s = .next t)
      (hs : Sends s.cfg (Quiet s.cfg) (commandEvents s.cfg s.orient i) items) :
      l1 c t.trace = l1 c s.trace ++ items := by
    rw [(exec_ran he).trace]
    exact l1_trace_append h hl hs
  refine ⟨fun cmd he => ?_, fun hi lo he => hadd he (sends_dataWrite ..), fun v he => hadd he (sends_dataWrite ..),
    fun cmd hi lo he => ?_, fun reg v he => ?_⟩
  · rw [hadd he (sends_commandWrite ..), commandItems_eq, List.append_assoc]
    rfl
  · rw [hadd he (sends_commandDataWrite ..), commandItems_eq]
    simp only [List.append_assoc]
    rfl
  · rw [hadd he (sends_regWrite ..), registerItems, commandItems_eq, hiByte_setWidth, loByte_setWidth]
    simp only [List.append_assoc]
    rfl

/-- Settles O40: the two brackets have an edge of CS each, and DC between them, that the one has not. -/
theorem combinedWriteReadsAsTheTwo : Obligations.CombinedWriteReadsAsTheTwo := by
  intro s cmd hi lo h hl
  refine ⟨_, _, _, exec_wrcmddata hl cmd hi lo, exec_wrcmd hl cmd,
    exec_wrdata (s := s.perform (commandWrite s.cfg cmd)) hl (hi ++ lo), ?_, ?_⟩
  · have htwo := (sends_commandWrite s.cfg cmd).append (sends_dataWrite s.cfg hi lo)
    simp only [State.perform_trace, State.perform_cfg, hiByte, loByte, extractLsb'_append_high,
      extractLsb'_append_low]
    rw [List.append_assoc, l1_trace_append h hl (sends_commandDataWrite ..), l1_trace_append h hl htwo]
  · simp only [State.perform_trace, State.perform_cfg, List.length_append, length_commandDataWrite,
      length_commandWrite, length_dataWrite]
    omega

/-- Settles O41: each command's reading, with the bounds it holds. -/
theorem commandsReadAsRegisterWrites : Obligations.CommandsReadAsRegisterWrites := by
  intro s t h hw hl c
  have hread {i : Instr} (hi : i ≠ .begin) (he : exec i s = .next t) :
      l2 c t.trace = l2 c s.trace ++ commandWrites s.cfg s.orient i (selected s) :=
    (l2_of_exec (fun hb => absurd hb hi) h hw he).1
  refine ⟨fun reg v he => hread (by simp) he, fun flag he => hread (by simp) he, fun x1 y1 x2 y2 he => ?_,
    fun he => ?_, fun x y color he => ?_⟩
  · rw [hread (by simp) he]
    obtain ⟨-, he⟩ := whenReady_next.1 he
    obtain ⟨-, he⟩ := whenInRange_next.1 he
    cases he
    rfl
  · rw [hread (by simp) he]
    obtain ⟨-, he⟩ := whenReady_next.1 he
    cases he
    rfl
  · rw [hread (by simp) he, List.append_assoc, List.append_assoc, commandWrites, pointWrites, List.append_assoc]
    obtain ⟨-, he⟩ := whenReady_next.1 he
    obtain ⟨-, he⟩ := whenInRange_next.1 he
    cases he
    rfl

/-- Settles O43: both framings send the same bytes, and nothing else of a fill reads the parameter. -/
theorem fillFramingIsInvisible : Obligations.FillFramingIsInvisible := by
  intro s t b x1 y1 x2 y2 color h he
  obtain ⟨hl, h1, h2⟩ := exec_fastfill_accepted he
  have hu := exec_fastfill (s := { s with cfg := { s.cfg with fillOneBracket := b } }) color hl h1 h2
  refine ⟨_, hu, ?_⟩
  calc l1 s.cfg (fillBody x1 y1 x2 y2 color { s with cfg := { s.cfg with fillOneBracket := b } }).trace
      = l1 s.cfg (s.trace ++ rectFillEvents { s.cfg with fillOneBracket := b } s.orient x1 y1 x2 y2 color) :=
        congrArg _ (exec_ran hu).trace
    _ = l1 s.cfg s.trace ++ rectFillItems s.cfg s.orient x1 y1 x2 y2 color :=
        l1_trace_append h hl (sends_rectFillEvents_framed ..)
    _ = l1 s.cfg t.trace := by
        rw [(exec_ran he).trace]
        exact (l1_trace_append h hl (sends_rectFillEvents ..)).symm

/-- Settles O44: the reading of what `BEGIN` sends, from an empty trace. -/
theorem beginReadsAsStartUpAndClear : Obligations.BeginReadsAsStartUpAndClear := by
  intro s hl htrace hv
  refine ⟨_, exec_begin hl, ?_⟩
  rw [beginBody_trace, htrace, List.nil_append, (l2_beginEvents hv).1, beginWrites, List.append_assoc]

/-- Settles O45: the shape of `INIT_SEQ` admits only registers of the table, and the other procedures name them. -/
theorem onlyRawCommandsSendOtherIndices : Obligations.OnlyRawCommandsSendOtherIndices := by
  intro i s t h hw hv hi he
  exact ⟨_, (l2_of_exec (fun _ => hv) h hw he).1, selectsListed_commandWrites hv s.orient hi _⟩

/-- Settles O46: a data word reads by the index that the trace leaves selected. -/
theorem dataWordsGoToTheSelectedRegister : Obligations.DataWordsGoToTheSelectedRegister := by
  intro s t v h hw he
  have hread := (l2_of_exec (i := .wrdata v) (fun hb => absurd hb (by simp)) h hw he).1
  refine ⟨fun r hr => ?_, fun hr => ?_⟩
  · rw [hread, selected, hr]; rfl
  · rw [hread, selected, hr]; rfl

/-- The index after a command is the RAM data port exactly as R264 says. -/
theorem indexAfter_eq_ram_iff (c : Cfg) {i : Instr} (idx : Option Word) :
    indexAfter c i idx = some (c.regmap.ramData.setWidth 16) ↔
      selectsRam c (decide (idx = some (c.regmap.ramData.setWidth 16))) i = true := by
  have hreg (reg : Byte) : (reg.setWidth 16 : Word) = c.regmap.ramData.setWidth 16 ↔ reg = c.regmap.ramData :=
    ⟨fun h => by rw [← loByte_setWidth reg, h, loByte_setWidth], fun h => h ▸ rfl⟩
  cases i <;> simp [indexAfter, selectsRam, hreg]

/-- Settles O47: the index a command leaves selected, case by case; a data word leaves it alone. -/
theorem selectedIndexAfterACommand : Obligations.SelectedIndexAfterACommand := by
  intro i s t h hw hv hl he idx ram
  have hidx : idx t = indexAfter s.cfg i (selected s) := selected_of_exec hv h hw he
  refine ⟨by rw [hidx]; exact indexAfter_eq_ram_iff s.cfg (selected s),
    fun may hmay => ⟨fun hopen => ?_, fun hkept hdata => ?_⟩⟩
  · rw [hidx]
    cases i with
    | setwindow => rfl
    | wrdata | wrdata88 | setorient | orientxy | setintensity | whoami | readtouch => exact hmay hopen
    | _ => cases hopen
  · have hopen : may = true := by simpa [streamKept, hdata] using hkept
    have hsel : selected s = ram := hmay hopen
    have hread := (l2_of_exec (fun _ => hv) h hw he).1
    rw [hsel] at hread
    cases i with
    | wrdata v => exact ⟨v, hread⟩
    | wrdata88 hi lo => exact ⟨hi ++ lo, hread⟩
    | _ => cases hdata

/-- Settles O51: every reading ends with no word pending. -/
theorem everyStepKeepsWholeWords : Obligations.EveryStepKeepsWholeWords := by
  intro s t hv h hw hstep
  obtain ⟨-, rfl⟩ | ⟨-, -, rfl⟩ | ⟨w, rest, i, u, -, -, -, he, rfl⟩ := step_cases hstep
  · rw [stepBusy_frame]
    exact hw
  · exact hw
  · have ha : TraceInv (s.accept w rest) := h.congr rfl rfl rfl rfl
    have hu : WholeWords u := wholeWords_of_exec (s := s.accept w rest) hv ha hw he
    exact hu

end Sys2Proof.Machine

/-! SUPPORT. The timed reading (70_reset_and_hazards R261): a procedure of the bus puts its register writes between
the waits, and the trace of `BEGIN` is read whole. -/

namespace Sys2Proof.Machine

/-! ## Timed readings of procedures -/

theorem timedFrom_append (c : Cfg) (a b : List Event) (w : Option Pins) (st : L2State) :
    timedFrom c w st (a ++ b) =
      timedFrom c w st a ++ timedFrom c (a.foldl (wiresAfter c) w) (l2After c st (l1From c w a)) b := by
  induction a generalizing w st with
  | nil => rfl
  | cons e es ih => simp only [List.cons_append, timedFrom, ih, List.append_assoc, List.foldl_cons, l1From,
      l2After_append]

/-- A bus event takes no time and does not move RST. -/
theorem timeMark_of_isBus (c : Cfg) (w : Option Pins) : ∀ {e : Event}, e.isBus = true → timeMark c w e = []
  | .sig .cs _, _ | .sig .dc _, _ | .sig .wr _, _ | .data _, _ => by cases w <;> rfl

theorem timedFrom_of_isBus (c : Cfg) {evs : List Event} (h : evs.all Event.isBus = true) (w : Option Pins)
    (st : L2State) : timedFrom c w st evs = (l2From c st (l1From c w evs)).map .item := by
  induction evs generalizing w st with
  | nil => rfl
  | cons e es ih =>
    obtain ⟨he, hes⟩ := Bool.and_eq_true_iff.1 h
    rw [timedFrom, timeMark_of_isBus c w he, ih hes, l1From, l2From_append, List.map_append, List.nil_append]

/-- From quiet wires with no word pending, the events read as `out` with their waits and resets; then the wires are
quiet again and no word is pending. -/
structure Clocked (c : Cfg) (evs : List Event) (out : List Timed) : Prop where
  noCfg : Event.cfg ∉ evs
  keeps : ∀ p, Quiet c p → Quiet c (evs.foldl (pinsAfter c) p)
  reads : ∀ p, Quiet c p → ∀ idx, timedFrom c (some p) (.whole idx) evs = out ∧
    ∃ idx', l2After c (.whole idx) (l1From c (some p) evs) = .whole idx'

theorem clocked_nil (c : Cfg) : Clocked c [] [] := ⟨List.not_mem_nil, fun _ hp => hp, fun _ _ idx => ⟨rfl, idx, rfl⟩⟩

theorem Clocked.append {c : Cfg} {a b : List Event} {out out' : List Timed} (ha : Clocked c a out)
    (hb : Clocked c b out') : Clocked c (a ++ b) (out ++ out') where
  noCfg := by simp [ha.noCfg, hb.noCfg]
  keeps p hp := by
    rw [List.foldl_append]
    exact hb.keeps _ (ha.keeps p hp)
  reads p hp idx := by
    obtain ⟨hout, idx', hidx⟩ := ha.reads p hp idx
    obtain ⟨hout', hidx'⟩ := hb.reads _ (ha.keeps p hp) idx'
    rw [timedFrom_append, l1From_append, l2After_append, wires_foldl c a ha.noCfg, hout, hidx, hout']
    exact ⟨rfl, hidx'⟩

/-- A procedure of the bus reads as its register writes, without a wait. -/
theorem Reads.clocked {c : Cfg} {evs : List Event} {out : List L2Item} {after : Option Word → Option Word}
    (h : Reads c evs (fun _ => out) after) (hbus : evs.all Event.isBus = true) : Clocked c evs (out.map .item) := by
  obtain ⟨items, hs, hread⟩ := h
  refine ⟨hs.noCfg, hs.keeps, fun p hp idx => ?_⟩
  obtain ⟨hout, hafter⟩ := hread idx
  rw [timedFrom_of_isBus c hbus, hs.reads p hp, hout]
  exact ⟨rfl, _, hafter⟩

theorem clocked_wait (c : Cfg) (t : Nat) : Clocked c [.wait t] [.pass t] :=
  ⟨by simp, fun _ hp => hp, fun _ _ idx => ⟨rfl, idx, rfl⟩⟩

/-! ## `BEGIN` -/

/-- The panel reset as time: its width, and the end of the pulse (44_lifecycle R202). -/
def pulseTimed (c : Cfg) : List Timed :=
  match c.resetMode with
  | .pulsed => [.pass c.tRstLow, .release]
  | .hardwired => []

theorem clocked_pulseEvents (c : Cfg) : Clocked c (pulseEvents c) (pulseTimed c) := by
  refine ⟨?_, (lawful_pulseEvents c).keeps, fun p _ idx => ?_⟩ <;> unfold pulseEvents <;> cases hr : c.resetMode
  · exact List.not_mem_nil
  · exact cfg_notMem_resetPulse c
  · rw [pulseTimed, hr]
    exact ⟨rfl, idx, rfl⟩
  · refine ⟨?_, idx, rfl⟩
    simp [pulseTimed, hr, resetPulse, timedFrom, timeMark, latched, wiresAfter, pinsAfter, Pins.set, Cfg.rstInactive,
      l2From, l2After]

/-- A step of `INIT_SEQ` as time (42_register_interface R154). -/
def initStepTimed : InitStep → List Timed
  | .write reg val => (registerWrites reg val).map .item
  | .delay t => [.pass t]

theorem clocked_initStepEvents (c : Cfg) (st : InitStep) : Clocked c (initStepEvents c st) (initStepTimed st) := by
  cases st with
  | write reg val => exact (reads_regWrite c reg val).clocked (isBus_regWrite c reg val)
  | delay t => exact clocked_wait c t

theorem clocked_flatMap_initStepEvents (c : Cfg) (l : List InitStep) :
    Clocked c (l.flatMap (initStepEvents c)) (l.flatMap initStepTimed) := by
  induction l with
  | nil => exact clocked_nil c
  | cons st l ih => exact (clocked_initStepEvents c st).append ih

/-- The window and the pixels of a fill as time: none passes. -/
def fillTimed (c : Cfg) (hs he vs ve color : Word) (n : Nat) : List Timed :=
  (windowWrites c hs he vs ve ++ pixelWrites c color n).map .item

theorem clocked_window_fill (c : Cfg) (hs he vs ve color : Word) (n : Nat) :
    Clocked c (windowEvents c hs he vs ve ++ fillEvents c color n) (fillTimed c hs he vs ve color n) :=
  (reads_window_fill ..).clocked (by simp [-List.all_eq_true])

/-- The timed reading of `BEGIN` (44_lifecycle R203). -/
def beginTimed (c : Cfg) : List Timed :=
  pulseTimed c ++ c.initSeq.flatMap initStepTimed ++
    fillTimed c 0 (BitVec.ofNat 16 (c.w - 1)) 0 (BitVec.ofNat 16 (c.h - 1)) c.clearColor (c.w * c.h)

theorem timed_beginEvents {c : Cfg} (hv : c.valid = true) : timed c (beginEvents c) = beginTimed c := by
  rw [beginEvents_eq, rectFillEvents_fullExtent (valid_sizeOk hv)]
  exact ((((clocked_pulseEvents c).append (clocked_flatMap_initStepEvents c c.initSeq)).append
    (clocked_window_fill ..)).reads _ (quiet_idle hv _) none).1

/-- The items of a command that waits for nothing, in the trace it is added to. -/
theorem timed_trace_append {s : State} {evs : List Event} {out : List Timed} (he : Clocked s.cfg evs out)
    (h : TraceInv s) (hw : WholeWords s) (hl : s.life = .ready) :
    timed s.cfg (s.trace ++ evs) = timed s.cfg s.trace ++ out := by
  have hst : l2After s.cfg L2State.start (l1From s.cfg none s.trace) = .whole (selected s) := hw.l2After_selected
  rw [timed, timedFrom_append, h.wires hl, hst, (he.reads _ (h.quietPins hl) _).1]
  rfl

/-! ## The sleep exit -/

theorem setWidth_ne {a b : Byte} (h : a ≠ b) : (a.setWidth 16 : Word) ≠ b.setWidth 16 := fun he =>
  h (by rw [← loByte_setWidth a, he, loByte_setWidth])

theorem mem_registerWrites {reg : Byte} {val r v : Word} :
    .write r v ∈ registerWrites reg val ↔ r = reg.setWidth 16 ∧ v = val := by
  simp [registerWrites]

/-- No write to the sleep-mode register. -/
def SparesSleep (c : Cfg) (l : List Timed) : Prop :=
  ∀ r v, .item (.write r v) ∈ l → r ≠ c.regmap.sleepMode.setWidth 16

theorem SparesSleep.append {c : Cfg} {a b : List Timed} (ha : SparesSleep c a) (hb : SparesSleep c b) :
    SparesSleep c (a ++ b) := fun r v h => (List.mem_append.1 h).elim (ha r v) (hb r v)

theorem sparesSleep_items {c : Cfg} {l : List L2Item} :
    SparesSleep c (l.map .item) ↔ ∀ r v, .write r v ∈ l → r ≠ c.regmap.sleepMode.setWidth 16 := by
  simp [SparesSleep]

/-- The settle rule looks only at the writes to the sleep-mode register. -/
theorem settleKept_append {c : Cfg} {l : List Timed} (h : SparesSleep c l) (m : List Timed) :
    settleKept c none (l ++ m) = settleKept c none m := by
  induction l with
  | nil => rfl
  | cons x l ih =>
    have hl : SparesSleep c l := fun r v hm => h r v (List.mem_cons_of_mem _ hm)
    rw [List.cons_append]
    cases x with
    | pass t => exact ih hl
    | release => exact ih hl
    | item x =>
      cases x with
      | sel r => exact ih hl
      | bad => exact ih hl
      | write r v =>
        have hstay : mayLeaveSleep c r v = false := by
          rw [mayLeaveSleep, beq_eq_false_iff_ne.2 (h r v List.mem_cons_self)]
          rfl
        rw [settleKept, hstay]
        exact ih hl

theorem settleKept_of_sparesSleep {c : Cfg} {l : List Timed} (h : SparesSleep c l) : settleKept c none l = true := by
  rw [← List.append_nil l, settleKept_append h]
  rfl

theorem sparesSleep_registerWrites {c : Cfg} {reg : Byte} (h : reg ≠ c.regmap.sleepMode) (val : Word) :
    SparesSleep c ((registerWrites reg val).map .item) :=
  sparesSleep_items.2 fun _ _ hm => (mem_registerWrites.1 hm).1 ▸ setWidth_ne h

theorem sparesSleep_pulseTimed (c : Cfg) : SparesSleep c (pulseTimed c) := by
  unfold pulseTimed
  cases c.resetMode <;> simp [SparesSleep]

theorem sparesSleep_initSteps {c : Cfg} {P : Byte → Prop} (hP : ∀ reg, P reg → reg ≠ c.regmap.sleepMode)
    {l : List InitStep} (h : ∀ st ∈ l, WritesReg P st) : SparesSleep c (l.flatMap initStepTimed) := by
  induction l with
  | nil => exact fun _ _ hm => nomatch hm
  | cons st l ih =>
    obtain ⟨⟨reg, val, rfl, hreg⟩, hl⟩ := List.forall_mem_cons.1 h
    exact (sparesSleep_registerWrites (hP reg hreg) val).append (ih hl)

/-- No register of the window is the sleep mode or the RAM data port. -/
theorem plainReg_windowRegs {c : Cfg} (hv : c.valid = true) {reg : Byte} (h : reg ∈ windowRegs c) :
    PlainReg c reg := by
  have hplain {i : Nat} (hi : i < 14) (h6 : i ≠ 6) (h8 : i ≠ 8) := plainReg_headRegs hv hi h6 h8
  simp only [windowRegs, List.mem_append, List.mem_cons, List.not_mem_nil, or_false] at h
  rcases h with (rfl | rfl | rfl | rfl | rfl) | h
  · exact hplain (i := 9) (by decide) (by decide) (by decide)
  · exact hplain (i := 10) (by decide) (by decide) (by decide)
  · exact hplain (i := 11) (by decide) (by decide) (by decide)
  · exact hplain (i := 12) (by decide) (by decide) (by decide)
  · exact hplain (i := 13) (by decide) (by decide) (by decide)
  · exact plainReg_tailRegs hv (List.mem_append_left _ (List.mem_append_left _ h))

/-- Every write of a window goes to one of its registers. -/
theorem mem_windowWrites {c : Cfg} {hs he vs ve r v : Word} (h : .write r v ∈ windowWrites c hs he vs ve) :
    ∃ reg ∈ windowRegs c, r = reg.setWidth 16 := by
  simp only [windowWrites, List.mem_append, List.mem_singleton, reduceCtorEq, or_false] at h
  rcases h with (((h | h) | h) | h) | h
  · exact ⟨_, by simp [windowRegs], (mem_registerWrites.1 h).1⟩
  · exact ⟨_, by simp [windowRegs], (mem_registerWrites.1 h).1⟩
  · split at h
    · exact ⟨_, by simp [windowRegs], (mem_registerWrites.1 h).1⟩
    · next hp =>
      rcases List.mem_append.1 h with h | h
      · exact ⟨_, by simp [windowRegs, hp], (mem_registerWrites.1 h).1⟩
      · exact ⟨_, by simp [windowRegs, hp], (mem_registerWrites.1 h).1⟩
  · exact ⟨_, by simp [windowRegs], (mem_registerWrites.1 h).1⟩
  · exact ⟨_, by simp [windowRegs], (mem_registerWrites.1 h).1⟩

theorem sparesSleep_fillTimed {c : Cfg} (hv : c.valid = true) (hs he vs ve color : Word) (n : Nat) :
    SparesSleep c (fillTimed c hs he vs ve color n) := by
  refine sparesSleep_items.2 fun r v h => ?_
  rcases List.mem_append.1 h with h | h
  · obtain ⟨reg, hreg, rfl⟩ := mem_windowWrites h
    exact setWidth_ne (plainReg_windowRegs hv hreg).ne_sleepMode
  · obtain ⟨rfl, -⟩ := L2Item.write.inj (List.eq_of_mem_replicate h)
    exact setWidth_ne (sleepMode_ne_ramData hv).symm

/-- The steps around the sleep exit, as time. -/
theorem InitShape.flatMap_timed {c : Cfg} {before after : List InitStep} (h : InitShape c before after) :
    c.initSeq.flatMap initStepTimed = before.flatMap initStepTimed ++
      (.item (.sel (c.regmap.sleepMode.setWidth 16)) ::
        .item (.write (c.regmap.sleepMode.setWidth 16) c.sleepOut) :: .pass c.tSlpout ::
          after.flatMap initStepTimed) := by
  rw [h.eq, List.flatMap_append]
  rfl

theorem InitShape.initEvents {c : Cfg} {before after : List InitStep} (h : InitShape c before after) :
    initEvents c = before.flatMap (initStepEvents c) ++ regWrite c c.regmap.sleepMode c.sleepOut ++
      [.wait c.tSlpout] ++ after.flatMap (initStepEvents c) := by
  simp only [Machine.initEvents, h.eq, List.flatMap_append, List.flatMap_cons, initStepEvents, List.append_assoc]

theorem tSlpout_floor {c : Cfg} (hv : c.valid = true) : 30000000 ≤ c.tSlpout := by
  have h := valid_delaysOk hv
  simp only [Cfg.delaysOk, Bool.and_eq_true, decide_eq_true_eq] at h
  omega

/-- Settles O27: the shape of `INIT_SEQ` gives the exit and its wait, and no other write is to the register. -/
theorem beginKeepsTheSleepSettle : Obligations.BeginKeepsTheSleepSettle := by
  intro s hl htrace hv
  obtain ⟨before, after, hshape⟩ := exists_initShape hv
  have htimed : timed s.cfg (beginBody s).trace = beginTimed s.cfg := by
    rw [beginBody_trace, htrace, List.nil_append, timed_beginEvents hv]
  refine ⟨_, exec_begin hl, ⟨.cfg :: (pulseEvents s.cfg ++ before.flatMap (initStepEvents s.cfg)), s.cfg.tSlpout,
    after.flatMap (initStepEvents s.cfg) ++ rectFillEvents s.cfg 1 0 0 (lastX s.cfg 1) (lastY s.cfg 1)
      s.cfg.clearColor, ?_, tSlpout_floor hv⟩, ?_, ?_⟩
  · rw [beginBody_trace, htrace, beginEvents_eq, hshape.initEvents]
    simp only [List.nil_append, List.cons_append, List.append_assoc]
  · have hearly := (sparesSleep_pulseTimed s.cfg).append
      (sparesSleep_initSteps (fun _ hr => (plainReg_earlyRegs hv hr).ne_sleepMode) hshape.early)
    have hlate := (sparesSleep_initSteps (fun _ hr => hr.ne_sleepMode) hshape.late).append
      (sparesSleep_fillTimed hv 0 (BitVec.ofNat 16 (s.cfg.w - 1)) 0 (BitVec.ofNat 16 (s.cfg.h - 1))
        s.cfg.clearColor (s.cfg.w * s.cfg.h))
    rw [htimed, beginTimed, hshape.flatMap_timed, ← List.append_assoc, List.append_assoc, settleKept_append hearly]
    simp only [List.cons_append, settleKept, mayLeaveSleep, beq_self_eq_true, Bool.true_or, Bool.and_true, if_true,
      if_pos (tSlpout_floor hv)]
    exact settleKept_of_sparesSleep hlate
  · rw [htimed, beginTimed, hshape.flatMap_timed]
    simp

end Sys2Proof.Machine

/-! SUPPORT. What the controller does with a window, with a stream of pixels and with `INIT_SEQ`
(20_memory R66 to R70), register by register. -/

namespace Sys2Proof.Machine

/-! ## Registers the panel knows -/

theorem setWidth_inj {a b : Byte} : (a.setWidth 16 : Word) = b.setWidth 16 ↔ a = b :=
  ⟨fun h => Decidable.by_contra fun hne => setWidth_ne hne h, fun h => h ▸ rfl⟩

/-- The registers that the panel knows by name, in the reverse of the order a write is compared with them. -/
def panelRegs (c : Cfg) : List Byte :=
  [c.regmap.yRamAddr, c.regmap.xRamAddr] ++
    (if c.vwinPacked then [c.regmap.vRamPos] else [c.regmap.vRamEnd, c.regmap.vRamStart]) ++
    [c.regmap.hRamEnd, c.regmap.hRamStart, c.regmap.ramData, c.regmap.entryMode, c.regmap.outputCtrl,
      c.regmap.sleepMode]

theorem panelRegs_nodup {c : Cfg} (hv : c.valid = true) : (panelRegs c).Nodup := by
  have h : c.namedRegs.Nodup := of_decide_eq_true (valid_regsOk hv)
  cases hp : c.vwinPacked
  all_goals
    simp [Cfg.namedRegs, hp] at h
    simp [panelRegs, hp]
    grind

/-- Those whose order does not depend on how the rows of the window are written. -/
theorem panelRegs_nodup_core {c : Cfg} (hv : c.valid = true) :
    [c.regmap.hRamEnd, c.regmap.hRamStart, c.regmap.ramData, c.regmap.entryMode, c.regmap.outputCtrl,
      c.regmap.sleepMode].Nodup := (List.nodup_append.1 (panelRegs_nodup hv)).2.1

/-- The panel out of sleep, with time to serve (44_lifecycle R206, 70_reset_and_hazards R261). -/
def Panel.woken (p : Panel) (owed : Nat) : Panel := { p with awake := true, owed := owed }

section Write
variable {c : Cfg} (k : Controller) {p : Panel} (v : Word)

theorem Panel.write_sleepOut (c : Cfg) (k : Controller) (p : Panel) :
    p.write c k (c.regmap.sleepMode.setWidth 16) c.sleepOut = some (p.woken 30000000) := by
  rw [Panel.write, if_pos rfl, Panel.setSleep, if_pos rfl, Panel.woken]

theorem Panel.write_ramData (hv : c.valid = true) (ha : p.awake = true) :
    p.write c k (c.regmap.ramData.setWidth 16) v = p.store c (k.scan p.output p.entry) v := by
  have h := panelRegs_nodup_core hv
  simp at h
  simp [Panel.write, setWidth_inj, h, ha]

theorem Panel.write_hRamStart (hv : c.valid = true) (ha : p.awake = true) :
    p.write c k (c.regmap.hRamStart.setWidth 16) v = some { p with hs := v.toNat } := by
  have h := panelRegs_nodup_core hv
  simp at h
  simp [Panel.write, Panel.setGeometry, setWidth_inj, h, ha]

theorem Panel.write_hRamEnd (hv : c.valid = true) (ha : p.awake = true) :
    p.write c k (c.regmap.hRamEnd.setWidth 16) v = some { p with he := v.toNat } := by
  have h := panelRegs_nodup_core hv
  simp at h
  simp [Panel.write, Panel.setGeometry, setWidth_inj, h, ha]

theorem Panel.write_vRamPos (hv : c.valid = true) (ha : p.awake = true) (hp : c.vwinPacked = true) :
    p.write c k (c.regmap.vRamPos.setWidth 16) v =
      some { p with vs := (loByte v).toNat, ve := (hiByte v).toNat } := by
  have h := panelRegs_nodup hv
  simp [panelRegs, hp] at h
  simp [Panel.write, Panel.setGeometry, setWidth_inj, h, ha, hp]

theorem Panel.write_vRamStart (hv : c.valid = true) (ha : p.awake = true) (hp : ¬ c.vwinPacked = true) :
    p.write c k (c.regmap.vRamStart.setWidth 16) v = some { p with vs := v.toNat } := by
  have h := panelRegs_nodup hv
  simp [panelRegs, hp] at h
  simp [Panel.write, Panel.setGeometry, setWidth_inj, h, ha, hp]

theorem Panel.write_vRamEnd (hv : c.valid = true) (ha : p.awake = true) (hp : ¬ c.vwinPacked = true) :
    p.write c k (c.regmap.vRamEnd.setWidth 16) v = some { p with ve := v.toNat } := by
  have h := panelRegs_nodup hv
  simp [panelRegs, hp] at h
  simp [Panel.write, Panel.setGeometry, setWidth_inj, h, ha, hp]

theorem Panel.write_xRamAddr (hv : c.valid = true) (ha : p.awake = true) :
    p.write c k (c.regmap.xRamAddr.setWidth 16) v = some { p with ax := v.toNat } := by
  by_cases hp : c.vwinPacked = true
  all_goals
    have h := panelRegs_nodup hv
    simp [panelRegs, hp] at h
    simp [Panel.write, Panel.setGeometry, setWidth_inj, h, ha, hp]

theorem Panel.write_yRamAddr (hv : c.valid = true) (ha : p.awake = true) :
    p.write c k (c.regmap.yRamAddr.setWidth 16) v = some { p with ay := v.toNat } := by
  by_cases hp : c.vwinPacked = true
  all_goals
    have h := panelRegs_nodup hv
    simp [panelRegs, hp] at h
    simp [Panel.write, Panel.setGeometry, setWidth_inj, h, ha, hp]

end Write

/-! ## Runs over register writes -/

theorem Panel.run_cons (c : Cfg) (k : Controller) (p : Panel) (x : Timed) (l : List Timed) :
    Panel.run c k p (x :: l) = (p.take c k x).bind fun q => Panel.run c k q l := by
  rw [Panel.run]
  cases p.take c k x <;> rfl

/-- A register write of the table, once no time is owed. -/
theorem Panel.run_registerWrites {c : Cfg} {reg : Byte} (hr : reg ∈ c.namedRegs) (k : Controller) {p : Panel}
    (ho : p.owed = 0) (val : Word) (l : List Timed) :
    Panel.run c k p ((registerWrites reg val).map .item ++ l) =
      (p.write c k (reg.setWidth 16) val).bind fun q => Panel.run c k q l := by
  have hl := listed_of_mem hr
  simp only [registerWrites, List.map_cons, List.map_nil, List.cons_append, List.nil_append, Panel.run_cons,
    Panel.take, ho, if_true, Panel.takeItem, hl, Option.bind_some]

/-- A command write of an index of the table. -/
theorem Panel.run_sel {c : Cfg} {reg : Byte} (hr : reg ∈ c.namedRegs) (k : Controller) {p : Panel}
    (ho : p.owed = 0) : Panel.run c k p [.item (.sel (reg.setWidth 16))] = some p := by
  rw [Panel.run_cons, Panel.take, if_pos ho, Panel.takeItem, if_pos (listed_of_mem hr)]
  rfl

/-- The panel with a window and the address at its start corner (43_geometry R176). -/
def Panel.placed (p : Panel) (hs he vs ve : Word) : Panel :=
  { p with hs := hs.toNat, he := he.toNat, vs := vs.toNat, ve := ve.toNat, ax := hs.toNat, ay := vs.toNat }

theorem toNat_loByte_of_lt {v : Word} (h : v.toNat < 256) : (loByte v).toNat = v.toNat := by
  rw [loByte, BitVec.extractLsb'_toNat, Nat.shiftRight_zero]
  omega

/-- The window programmed (43_geometry R176): packed rows hold the two bounds in a byte each. -/
theorem Panel.run_windowWrites {c : Cfg} (hv : c.valid = true) (k : Controller) {p : Panel} (ha : p.awake = true)
    (ho : p.owed = 0) {hs he vs ve : Word} (hrows : c.vwinPacked = true → vs.toNat < 256 ∧ ve.toNat < 256) :
    Panel.run c k p ((windowWrites c hs he vs ve).map .item) = some (p.placed hs he vs ve) := by
  have hset {reg : Byte} (hm : reg ∈ windowRegs c) {q : Panel} :=
    Panel.run_registerWrites (mem_namedRegs_of_window hm) k (p := q)
  have hhs {q : Panel} := hset (q := q) (reg := c.regmap.hRamStart) (by simp [windowRegs])
  have hhe {q : Panel} := hset (q := q) (reg := c.regmap.hRamEnd) (by simp [windowRegs])
  have hx {q : Panel} := hset (q := q) (reg := c.regmap.xRamAddr) (by simp [windowRegs])
  have hy {q : Panel} := hset (q := q) (reg := c.regmap.yRamAddr) (by simp [windowRegs])
  have hram {q : Panel} := Panel.run_sel (ramData_mem_namedRegs c) k (p := q)
  simp only [windowWrites, List.map_append, List.append_assoc, List.map_singleton]
  by_cases hp : c.vwinPacked = true
  · have hrow {q : Panel} := hset (q := q) (reg := c.regmap.vRamPos) (by simp [windowRegs])
    obtain ⟨hvs, hve⟩ := hrows hp
    have hlo : (loByte (packedRows vs ve)).toNat = vs.toNat := by
      rw [packedRows, loByte, extractLsb'_append_low, toNat_loByte_of_lt hvs]
    have hhi : (hiByte (packedRows vs ve)).toNat = ve.toNat := by
      rw [packedRows, hiByte, extractLsb'_append_high, toNat_loByte_of_lt hve]
    simp only [if_pos hp, hhs, hhe, hrow, hx, hy, hram, ho, ha, Panel.write_hRamStart k _ hv,
      Panel.write_hRamEnd k _ hv, Panel.write_vRamPos k _ hv _ hp, Panel.write_xRamAddr k _ hv,
      Panel.write_yRamAddr k _ hv, Option.bind_some, hlo, hhi, Panel.placed]
  · have hstart {q : Panel} := hset (q := q) (reg := c.regmap.vRamStart) (by simp [windowRegs, hp])
    have hend {q : Panel} := hset (q := q) (reg := c.regmap.vRamEnd) (by simp [windowRegs, hp])
    simp only [if_neg hp, List.map_append, List.append_assoc, hhs, hhe, hstart, hend, hx, hy, hram, ho, ha,
      Panel.write_hRamStart k _ hv, Panel.write_hRamEnd k _ hv, Panel.write_vRamStart k _ hv _ hp,
      Panel.write_vRamEnd k _ hv _ hp, Panel.write_xRamAddr k _ hv, Panel.write_yRamAddr k _ hv, Option.bind_some,
      Panel.placed]

/-! ## Runs over pixels -/

/-- The first `n` points of a path painted with one colour, the last one first. -/
def scanned (path : Nat → Nat × Nat) (color : Word) : Nat → List ((Nat × Nat) × Word)
  | 0 => []
  | n + 1 => (path n, color) :: scanned path color n

theorem lookup_scanned_of_reached (path : Nat → Nat × Nat) (color : Word) (l : List ((Nat × Nat) × Word)) {n i : Nat}
    (hi : i < n) : (scanned path color n ++ l).lookup (path i) = some color := by
  induction n with
  | zero => omega
  | succ n ih =>
    rw [scanned, List.cons_append, List.lookup_cons]
    by_cases hn : path i = path n
    · rw [beq_iff_eq.2 hn]
    · rw [beq_eq_false_iff_ne.2 hn]
      exact ih ((Nat.lt_succ_iff_lt_or_eq.1 hi).resolve_right fun he => hn (he ▸ rfl))

theorem lookup_scanned_of_missed {path : Nat → Nat × Nat} {n : Nat} {a : Nat × Nat} (h : ∀ i < n, path i ≠ a)
    (color : Word) (l : List ((Nat × Nat) × Word)) : (scanned path color n ++ l).lookup a = l.lookup a := by
  induction n with
  | zero => rfl
  | succ n ih =>
    rw [scanned, List.cons_append, List.lookup_cons,
      beq_eq_false_iff_ne.2 (h n (Nat.lt_succ_self n)).symm]
    exact ih fun i hi => h i (Nat.lt_succ_of_lt hi)

/-- The panel after `n` words of one colour along a path. -/
def Panel.painted (p : Panel) (path : Nat → Nat × Nat) (color : Word) (n : Nat) : Panel :=
  { p with ax := (path n).1, ay := (path n).2, pixels := scanned path color n ++ p.pixels }

/-- The path of the addresses from the start corner of the window held. -/
def Panel.path (k : Controller) (p : Panel) : Nat → Nat × Nat :=
  scanPath (k.scan p.output p.entry) p.hs p.he p.vs p.ve

/-- A stream of pixels follows the scan order (20_memory R67) while it stays in the window and on the panel. -/
theorem Panel.run_pixelWrites {c : Cfg} (hv : c.valid = true) (k : Controller) {p : Panel} (ha : p.awake = true)
    (ho : p.owed = 0) (hx : p.ax = p.hs) (hy : p.ay = p.vs) (color : Word) {n : Nat}
    (hin : ∀ i < n, p.inWindow (p.path k i) = true ∧ (p.path k i).1 < c.w ∧ (p.path k i).2 < c.h) :
    Panel.run c k p ((pixelWrites c color n).map .item) = some (p.painted (p.path k) color n) := by
  induction n with
  | zero =>
    obtain ⟨hs, he, vs, ve, ax, ay, output, entry, awake, owed, pixels⟩ := p
    cases hx
    cases hy
    rfl
  | succ n ih =>
    have hram := listed_of_mem (ramData_mem_namedRegs c)
    obtain ⟨hwin, hw, hh⟩ := hin n (Nat.lt_succ_self n)
    have hstore : (p.painted (p.path k) color n).store c (k.scan p.output p.entry) color =
        some (p.painted (p.path k) color (n + 1)) :=
      if_pos (by rw [Bool.and_eq_true, Bool.and_eq_true]; exact ⟨⟨hwin, decide_eq_true hw⟩, decide_eq_true hh⟩)
    rw [pixelWrites, List.replicate_succ', List.map_append, Panel.run_append, ← pixelWrites,
      ih fun i hi => hin i (Nat.lt_succ_of_lt hi), Option.bind_some, List.map_singleton, Panel.run_cons, Panel.take,
      if_pos (show (p.painted (p.path k) color n).owed = 0 from ho), Panel.takeItem, if_pos hram,
      Panel.write_ramData k color hv (show (p.painted (p.path k) color n).awake = true from ha)]
    exact congrArg (Option.bind · fun q => Panel.run c k q []) hstore

/-- What a fill of the window `hs he vs ve` makes of a panel. -/
structure Panel.Filled (p r : Panel) (hs he vs ve color : Word) : Prop where
  awake : r.awake = p.awake
  window : r.hs = hs.toNat ∧ r.he = he.toNat ∧ r.vs = vs.toNat ∧ r.ve = ve.toNat
  inside : ∀ x y, hs.toNat ≤ x → x ≤ he.toNat → vs.toNat ≤ y → y ≤ ve.toNat → r.pixel (x, y) = some color
  outside : ∀ a : Nat × Nat,
    ¬ (hs.toNat ≤ a.1 ∧ a.1 ≤ he.toNat ∧ vs.toNat ≤ a.2 ∧ a.2 ≤ ve.toNat) → r.pixel a = p.pixel a

/-- A fill of a window on the panel paints it and nothing else, in any scan order that fills it. -/
theorem Panel.run_fillTimed {c : Cfg} (hv : c.valid = true) (k : Controller) {p : Panel} (ha : p.awake = true)
    (ho : p.owed = 0) {hs he vs ve : Word} (hhe : he.toNat < c.w) (hve : ve.toNat < c.h)
    (hrows : vs.toNat ≤ ve.toNat) {n : Nat}
    (hscan : ScanFills (k.scan p.output p.entry) hs.toNat he.toNat vs.toNat ve.toNat n) (color : Word) :
    ∃ r, Panel.run c k p (fillTimed c hs he vs ve color n) = some r ∧ p.Filled r hs he vs ve color := by
  obtain ⟨hinside, hreached⟩ := hscan
  obtain ⟨-, -, -, -, hpacked⟩ := (sizeOk_iff c).1 (valid_sizeOk hv)
  have hbytes : c.vwinPacked = true → vs.toNat < 256 ∧ ve.toNat < 256 := fun hp => by
    have hh := hpacked.resolve_left (by simp [hp])
    omega
  have hin : ∀ i < n, (p.placed hs he vs ve).inWindow ((p.placed hs he vs ve).path k i) = true ∧
      ((p.placed hs he vs ve).path k i).1 < c.w ∧ ((p.placed hs he vs ve).path k i).2 < c.h := by
    intro i hi
    obtain ⟨h1, h2, h3, h4⟩ := hinside i hi
    refine ⟨?_, h2.trans_lt hhe, h4.trans_lt hve⟩
    simp only [Panel.inWindow, Bool.and_eq_true, decide_eq_true_eq]
    exact ⟨⟨⟨h1, h2⟩, h3⟩, h4⟩
  refine ⟨(p.placed hs he vs ve).painted ((p.placed hs he vs ve).path k) color n, ?_, rfl, ⟨rfl, rfl, rfl, rfl⟩,
    fun x y h1 h2 h3 h4 => ?_, fun a hout => ?_⟩
  · rw [fillTimed, List.map_append, Panel.run_append, Panel.run_windowWrites hv k ha ho hbytes, Option.bind_some]
    exact Panel.run_pixelWrites hv k (p := p.placed hs he vs ve) ha ho rfl rfl color hin
  · obtain ⟨i, hi, hpath⟩ := hreached x y h1 h2 h3 h4
    rw [← hpath]
    exact lookup_scanned_of_reached _ color p.pixels hi
  · refine lookup_scanned_of_missed (fun i hi hpath => hout ?_) color p.pixels
    rw [← hpath]
    exact hinside i hi

end Sys2Proof.Machine

/-! SUPPORT. What a fill, a point and start-up paint (43_geometry R182, 44_lifecycle R200, 70_reset_and_hazards
R262). -/

namespace Sys2Proof.Machine

/-! ## The rectangle and its image -/

/-- The rectangle of two corners (43_geometry R182). -/
def InRect (x1 y1 x2 y2 : Word) (lx ly : Nat) : Prop :=
  min x1.toNat x2.toNat ≤ lx ∧ lx ≤ max x1.toNat x2.toNat ∧ min y1.toNat y2.toNat ≤ ly ∧ ly ≤ max y1.toNat y2.toNat

/-- On numbers: a point lies between two corners exactly where its image lies between their images. -/
theorem transform_between {c : Cfg} {o : BitVec 2} {a b a' b' lx ly : Nat} (ha : a ≤ a') (hb : b ≤ b')
    (ha' : a' < sizeX c o) (hb' : b' < sizeY c o) (hlx : lx < sizeX c o) (hly : ly < sizeY c o) :
    (min (transform c o a b).1 (transform c o a' b').1 ≤ (transform c o lx ly).1 ∧
      (transform c o lx ly).1 ≤ max (transform c o a b).1 (transform c o a' b').1 ∧
      min (transform c o a b).2 (transform c o a' b').2 ≤ (transform c o lx ly).2 ∧
      (transform c o lx ly).2 ≤ max (transform c o a b).2 (transform c o a' b').2) ↔
    a ≤ lx ∧ lx ≤ a' ∧ b ≤ ly ∧ ly ≤ b' := by
  rcases orientation_cases o with rfl | rfl | rfl | rfl <;> simp_all <;> omega

/-- The bounds a fill leaves, as numbers. -/
theorem exec_fastfill_bounds_toNat {s t : State} {x1 y1 x2 y2 color : Word} (hv : s.cfg.valid = true)
    (h : exec (.fastfill x1 y1 x2 y2 color) s = .next t) :
    let p := transform s.cfg s.orient (min x1.toNat x2.toNat) (min y1.toNat y2.toNat)
    let q := transform s.cfg s.orient (max x1.toNat x2.toNat) (max y1.toNat y2.toNat)
    t.hs.toNat = min p.1 q.1 ∧ t.he.toNat = max p.1 q.1 ∧ t.vs.toNat = min p.2 q.2 ∧ t.ve.toNat = max p.2 q.2 := by
  intro p q
  obtain ⟨-, h1, h2⟩ := exec_fastfill_accepted h
  obtain ⟨hr1, hr2⟩ := inRange_sorted h1 h2
  have hbounds := exec_fastfill_bounds h
  simp only [windowBounds, Prod.mk.injEq] at hbounds
  obtain ⟨hhs, hhe, hvs, hve⟩ := hbounds
  obtain ⟨hx1, hy1⟩ := phys_toNat s.cfg (valid_sizeOk hv) s.orient _ _ hr1
  obtain ⟨hx2, hy2⟩ := phys_toNat s.cfg (valid_sizeOk hv) s.orient _ _ hr2
  rw [minWord_toNat, minWord_toNat] at hx1 hy1
  rw [maxWord_toNat, maxWord_toNat] at hx2 hy2
  rw [hhs, hhe, hvs, hve, minWord_toNat, maxWord_toNat, minWord_toNat, maxWord_toNat, hx1, hy1, hx2, hy2]
  exact ⟨rfl, rfl, rfl, rfl⟩

/-- A point of the rectangle is in the logical extent. -/
theorem InRect.lt {c : Cfg} {o : BitVec 2} {x1 y1 x2 y2 : Word} {lx ly : Nat} (h : InRect x1 y1 x2 y2 lx ly)
    (h1 : inRange c o x1 y1 = true) (h2 : inRange c o x2 y2 = true) : lx < sizeX c o ∧ ly < sizeY c o := by
  rw [inRange_iff] at h1 h2
  obtain ⟨-, hx, -, hy⟩ := h
  omega

/-- The window of a fill holds the images of the points of the rectangle and no other image. -/
theorem exec_fastfill_window {s t : State} {x1 y1 x2 y2 color : Word} (hv : s.cfg.valid = true)
    (h : exec (.fastfill x1 y1 x2 y2 color) s = .next t) {lx ly : Nat} (hlx : lx < sizeX s.cfg s.orient)
    (hly : ly < sizeY s.cfg s.orient) :
    (t.hs.toNat ≤ (transform s.cfg s.orient lx ly).1 ∧ (transform s.cfg s.orient lx ly).1 ≤ t.he.toNat ∧
      t.vs.toNat ≤ (transform s.cfg s.orient lx ly).2 ∧ (transform s.cfg s.orient lx ly).2 ≤ t.ve.toNat) ↔
    InRect x1 y1 x2 y2 lx ly := by
  obtain ⟨-, h1, h2⟩ := exec_fastfill_accepted h
  rw [inRange_iff] at h1 h2
  obtain ⟨hhs, hhe, hvs, hve⟩ := exec_fastfill_bounds_toNat hv h
  rw [hhs, hhe, hvs, hve]
  exact transform_between (by omega) (by omega) (by omega) (by omega) hlx hly

/-- The window of a fill lies on the panel. -/
theorem exec_fastfill_onPanel {s t : State} {x1 y1 x2 y2 color : Word} (hv : s.cfg.valid = true)
    (h : exec (.fastfill x1 y1 x2 y2 color) s = .next t) :
    t.he.toNat < s.cfg.w ∧ t.ve.toNat < s.cfg.h ∧ t.vs.toNat ≤ t.ve.toNat := by
  obtain ⟨-, h1, h2⟩ := exec_fastfill_accepted h
  rw [inRange_iff] at h1 h2
  obtain ⟨hhs, hhe, hvs, hve⟩ := exec_fastfill_bounds_toNat hv h
  obtain ⟨hp1, hp2⟩ := transform_lt s.cfg s.orient (min x1.toNat x2.toNat) (min y1.toNat y2.toNat) (by omega)
    (by omega)
  obtain ⟨hq1, hq2⟩ := transform_lt s.cfg s.orient (max x1.toNat x2.toNat) (max y1.toNat y2.toNat) (by omega)
    (by omega)
  omega

/-! ## The fill and the point -/

/-- Settles O56: the window of the fill holds exactly the images, and the scan order reaches all of it. -/
theorem fastfillPaintsTheRectangle : Obligations.FastfillPaintsTheRectangle := by
  intro s t x1 y1 x2 y2 color k q d hv h hw he hawake howed hscan inside
  obtain ⟨hl, h1, h2⟩ := exec_fastfill_accepted he
  obtain ⟨hhe, hve, hrows⟩ := exec_fastfill_onPanel hv he
  obtain ⟨hcount, -⟩ := exec_fastfill_area hv he
  obtain ⟨r, hrun, hfilled⟩ := Panel.run_fillTimed hv k (p := q.pass d) hawake (Nat.sub_eq_zero_of_le howed) hhe hve
    hrows hscan color
  refine ⟨_, r, ?_, hrun, fun lx ly hin => ?_, fun a hout => ?_⟩
  · rw [exec_fastfill_trace he, ← hcount]
    exact timed_trace_append (clocked_window_fill ..) h hw hl
  · obtain ⟨hlx, hly⟩ := InRect.lt hin h1 h2
    obtain ⟨ha, hb, hc, hd⟩ := (exec_fastfill_window hv he hlx hly).2 hin
    exact hfilled.inside _ _ ha hb hc hd
  · refine (hfilled.outside a fun hwin => ?_).trans (Panel.pass_pixel q d a)
    obtain ⟨-, hx, -, hy⟩ := id hwin
    have hon : a.1 < s.cfg.w ∧ a.2 < s.cfg.h := ⟨hx.trans_lt hhe, hy.trans_lt hve⟩
    have himage := transform_transformInv s.orient hon.1 hon.2
    obtain ⟨hlx, hly⟩ := transformInv_lt (c := s.cfg) s.orient hon.1 hon.2
    refine hout _ _ ((exec_fastfill_window hv he hlx hly).1 ?_) himage.symm
    rw [himage]
    exact hwin

/-- The address programmed and one word stored there (43_geometry R180). -/
theorem Panel.run_pointWrites {c : Cfg} (hv : c.valid = true) (k : Controller) {p : Panel} (ha : p.awake = true)
    (ho : p.owed = 0) (px py color : Word) :
    Panel.run c k p ((pointWrites c px py color).map .item) =
      { p with ax := px.toNat, ay := py.toNat }.store c (k.scan p.output p.entry) color := by
  have hx {q : Panel} := Panel.run_registerWrites (c := c) (reg := c.regmap.xRamAddr) (p := q)
    (mem_namedRegs_of_window (by simp [windowRegs])) k
  have hy {q : Panel} := Panel.run_registerWrites (c := c) (reg := c.regmap.yRamAddr) (p := q)
    (mem_namedRegs_of_window (by simp [windowRegs])) k
  have hram {q : Panel} (hq : q.owed = 0) :
      Panel.run c k q ((registerWrites c.regmap.ramData color).map .item) =
        q.write c k (c.regmap.ramData.setWidth 16) color := by
    rw [← List.append_nil (List.map _ _), Panel.run_registerWrites (ramData_mem_namedRegs c) k hq]
    cases q.write c k (c.regmap.ramData.setWidth 16) color <;> rfl
  simp only [pointWrites, List.map_append, List.append_assoc, hx, hy, hram, ho, ha, Panel.write_xRamAddr k _ hv,
    Panel.write_yRamAddr k _ hv, Panel.write_ramData k _ hv, Option.bind_some]

/-- Settles O57: the address is the image of the point, inside the window, and one word is stored there. -/
theorem setpointPaintsInsideTheWindow : Obligations.SetpointPaintsInsideTheWindow := by
  intro s t x y color k q d hv h hw he hawake howed hwin
  obtain ⟨hl, hbody⟩ := whenReady_next.1 he
  obtain ⟨hr, -⟩ := whenInRange_next.1 hbody
  obtain ⟨hpx, hpy⟩ := phys_toNat s.cfg (valid_sizeOk hv) s.orient x y hr
  obtain ⟨hlx, hly⟩ := (inRange_iff ..).1 hr
  obtain ⟨hon, hon'⟩ := transform_lt s.cfg s.orient _ _ hlx hly
  obtain ⟨r, hstore⟩ : ∃ r, { q.pass d with
      ax := (transform s.cfg s.orient x.toNat y.toNat).1
      ay := (transform s.cfg s.orient x.toNat y.toNat).2 }.store s.cfg (k.scan q.output q.entry) color =
        some r := ⟨_, if_pos (by
    rw [Bool.and_eq_true, Bool.and_eq_true]
    exact ⟨⟨hwin, decide_eq_true hon⟩, decide_eq_true hon'⟩)⟩
  refine ⟨(pointWrites s.cfg (physX s.cfg s.orient x y) (physY s.cfg s.orient x y) color).map .item, r, ?_, ?_,
    Panel.pixel_store hstore⟩
  · rw [(exec_ran he).trace]
    exact timed_trace_append ((reads_pointEvents ..).clocked (isBus_pointEvents ..)) h hw hl
  · rw [Panel.run_pointWrites hv k (p := q.pass d) hawake (Nat.sub_eq_zero_of_le howed), hpx, hpy]
    exact hstore

/-! ## Start-up -/

theorem Panel.setGeometry_keeps {c : Cfg} {p q : Panel} {r v : Word} (h : p.setGeometry c r v = some q) :
    q.awake = p.awake ∧ q.owed = p.owed := by
  unfold Panel.setGeometry at h
  split_ifs at h <;> cases h <;> exact ⟨rfl, rfl⟩

theorem Panel.setGeometry_of_notMem {c : Cfg} {reg : Byte} (h : reg ∉ windowRegs c) (p : Panel) (v : Word) :
    p.setGeometry c (reg.setWidth 16) v = none := by
  by_cases hp : c.vwinPacked = true
  all_goals
    simp [windowRegs, hp] at h
    simp [Panel.setGeometry, setWidth_inj, h, hp]

/-- An awake panel takes any write that neither is a pixel nor concerns sleep, and stays awake. -/
theorem Panel.write_plain {c : Cfg} {reg : Byte} (hr : PlainReg c reg) (k : Controller) {p : Panel}
    (ha : p.awake = true) (v : Word) :
    ∃ q, p.write c k (reg.setWidth 16) v = some q ∧ q.awake = true ∧ q.owed = p.owed := by
  rw [Panel.write, if_neg (setWidth_ne hr.ne_sleepMode), if_neg (setWidth_ne hr.ne_ramData)]
  split_ifs
  · exact ⟨_, rfl, ha, rfl⟩
  · exact ⟨_, rfl, ha, rfl⟩
  · cases hg : p.setGeometry c (reg.setWidth 16) v with
    | none => exact ⟨_, rfl, ha, rfl⟩
    | some q =>
      obtain ⟨hawake, howed⟩ := Panel.setGeometry_keeps hg
      exact ⟨q, rfl, hawake.trans ha, howed⟩

/-- No register written before the sleep exit places pixels. -/
theorem earlyRegs_notMem_windowRegs {c : Cfg} (hv : c.valid = true) {reg : Byte} (h : reg ∈ earlyRegs c) :
    reg ∉ windowRegs c := by
  have hnodup : c.namedRegs.Nodup := of_decide_eq_true (valid_regsOk hv)
  by_cases hp : c.vwinPacked = true
  all_goals
    simp [Cfg.namedRegs, hp] at hnodup
    simp [earlyRegs] at h
    simp [windowRegs, hp]
    grind

/-- The writes before the sleep exit have an answer while the panel sleeps (42_register_interface R153). -/
theorem Panel.write_early {c : Cfg} (hv : c.valid = true) {reg : Byte} (h : reg ∈ earlyRegs c) (k : Controller)
    (p : Panel) (v : Word) : ∃ q, p.write c k (reg.setWidth 16) v = some q ∧ q.owed = p.owed := by
  have hr := plainReg_earlyRegs hv h
  rw [Panel.write, if_neg (setWidth_ne hr.ne_sleepMode), if_neg (setWidth_ne hr.ne_ramData),
    Panel.setGeometry_of_notMem (earlyRegs_notMem_windowRegs hv h)]
  dsimp only
  split_ifs
  · exact ⟨_, rfl, rfl⟩
  · exact ⟨_, rfl, rfl⟩
  · exact ⟨_, rfl, rfl⟩

/-- Steps that each keep a condition under which no time is owed run to the end and keep it. -/
theorem Panel.run_initSteps {c : Cfg} {k : Controller} {P : Byte → Prop} {I : Panel → Prop}
    (hP : ∀ reg, P reg → reg ∈ c.namedRegs) (hI : ∀ p, I p → p.owed = 0)
    (hw : ∀ p reg val, I p → P reg → ∃ q, p.write c k (reg.setWidth 16) val = some q ∧ I q)
    {l : List InitStep} (hl : ∀ st ∈ l, WritesReg P st) {p : Panel} (hp : I p) :
    ∃ q, Panel.run c k p (l.flatMap initStepTimed) = some q ∧ I q := by
  induction l generalizing p with
  | nil => exact ⟨p, rfl, hp⟩
  | cons st l ih =>
    obtain ⟨⟨reg, val, rfl, hreg⟩, htail⟩ := List.forall_mem_cons.1 hl
    obtain ⟨q, hq, hIq⟩ := hw p reg val hp hreg
    obtain ⟨r, hr, hIr⟩ := ih htail hIq
    refine ⟨r, ?_, hIr⟩
    rw [List.flatMap_cons, initStepTimed, Panel.run_registerWrites (hP reg hreg) k (hI p hp), hq, Option.bind_some,
      hr]

/-- `INIT_SEQ` leaves the panel awake with its wait served. -/
theorem Panel.run_initSeq {c : Cfg} (hv : c.valid = true) (k : Controller) {p : Panel} (ho : p.owed = 0) :
    ∃ q, Panel.run c k p (c.initSeq.flatMap initStepTimed) = some q ∧ q.awake = true ∧ q.owed = 0 := by
  obtain ⟨before, after, hshape⟩ := exists_initShape hv
  obtain ⟨q, hq, hqo⟩ := Panel.run_initSteps (c := c) (k := k) (I := fun p => p.owed = 0)
    (fun _ hr => (plainReg_earlyRegs hv hr).named) (fun _ hp => hp)
    (fun p reg val hp hr => by
      obtain ⟨q, hq, hqo⟩ := Panel.write_early hv hr k p val
      exact ⟨q, hq, hqo.trans hp⟩) hshape.early ho
  have hserved : 30000000 - c.tSlpout = 0 := Nat.sub_eq_zero_of_le (tSlpout_floor hv)
  obtain ⟨r, hr, hrawake, hro⟩ := Panel.run_initSteps (c := c) (k := k) (p := q.woken (30000000 - c.tSlpout))
    (I := fun p => p.awake = true ∧ p.owed = 0) (fun _ hr => hr.named) (fun _ hp => hp.2)
    (fun p reg val hp hr => by
      obtain ⟨q, hq, hawake, howed⟩ := Panel.write_plain hr k hp.1 val
      exact ⟨q, hq, hawake, howed.trans hp.2⟩) hshape.late ⟨rfl, hserved⟩
  refine ⟨r, ?_, hrawake, hro⟩
  have hsplit : c.initSeq.flatMap initStepTimed = before.flatMap initStepTimed ++
      ((registerWrites c.regmap.sleepMode c.sleepOut).map .item ++ .pass c.tSlpout :: after.flatMap initStepTimed) :=
    hshape.flatMap_timed
  rw [hsplit, Panel.run_append, hq, Option.bind_some,
    Panel.run_registerWrites (sleepMode_mem_namedRegs c) k hqo, Panel.write_sleepOut, Option.bind_some,
    Panel.run_cons]
  exact hr

/-- After the panel reset, or without one, no time is owed where the controller asks for none
(70_reset_and_hazards R266). -/
theorem Panel.run_pulseTimed {c : Cfg} {k : Controller} (h : c.resetMode = .hardwired ∨ k.recovery = 0) {p : Panel}
    (ho : p.owed = 0) : ∃ q, Panel.run c k p (pulseTimed c) = some q ∧ q.owed = 0 := by
  unfold pulseTimed
  cases hr : c.resetMode with
  | hardwired => exact ⟨p, rfl, ho⟩
  | pulsed => exact ⟨_, rfl, h.resolve_left (by simp [hr])⟩

/-- The first write after the panel reset comes at once, before a recovery time has passed. -/
theorem Panel.run_beginTimed_eq_none {c : Cfg} (hv : c.valid = true) {k : Controller} (hr : c.resetMode = .pulsed)
    (hk : 0 < k.recovery) (p : Panel) : Panel.run c k p (beginTimed c) = none := by
  obtain ⟨before, after, hshape⟩ := exists_initShape hv
  obtain ⟨val, tl, rfl⟩ := hshape.starts
  have hpulse : Panel.run c k p (pulseTimed c) = some { k.afterReset with owed := k.recovery } := by
    rw [pulseTimed, hr]
    rfl
  rw [beginTimed, List.append_assoc, Panel.run_append, hpulse, hshape.flatMap_timed, Option.bind_some]
  simp only [List.flatMap_cons, initStepTimed, registerWrites, List.map_cons, List.cons_append, Panel.run_cons]
  rw [Panel.take, if_neg hk.ne']
  rfl

/-- Settles O58: through the reset and `INIT_SEQ` to an awake panel, and there the full window is filled. -/
theorem beginClearsThePanel : Obligations.BeginClearsThePanel := by
  intro s k p hl htrace hv ho hscan
  obtain ⟨hw, hh, hw', hh', -⟩ := (sizeOk_iff s.cfg).1 (valid_sizeOk hv)
  have htimed : timed s.cfg (beginBody s).trace = beginTimed s.cfg := by
    rw [beginBody_trace, htrace, List.nil_append, timed_beginEvents hv]
  have hhe : (BitVec.ofNat 16 (s.cfg.w - 1)).toNat = s.cfg.w - 1 := Nat.eq_sub_of_add_eq (ofNat_pred_toNat hw hw')
  have hve : (BitVec.ofNat 16 (s.cfg.h - 1)).toNat = s.cfg.h - 1 := Nat.eq_sub_of_add_eq (ofNat_pred_toNat hh hh')
  refine ⟨_, exec_begin hl, fun hno => ?_, fun hr hk => ?_⟩
  · obtain ⟨q, hq, hqo⟩ := Panel.run_pulseTimed hno ho
    obtain ⟨u, hu, hawake, huo⟩ := Panel.run_initSeq hv k hqo
    obtain ⟨r, hr, hfilled⟩ := Panel.run_fillTimed hv k (hs := 0) (he := BitVec.ofNat 16 (s.cfg.w - 1)) (vs := 0)
      (ve := BitVec.ofNat 16 (s.cfg.h - 1)) hawake huo (by omega) (by omega) (Nat.zero_le _)
      (by rw [hhe, hve]; exact hscan u.output u.entry) s.cfg.clearColor
    obtain ⟨h1, h2, h3, h4⟩ := hfilled.window
    refine ⟨r, ?_, hfilled.awake.trans hawake, h1, h2.trans hhe, h3, h4.trans hve, fun px py hx hy => ?_⟩
    · rw [htimed, beginTimed, Panel.run_append, Panel.run_append, hq, Option.bind_some, hu, Option.bind_some, hr]
    · exact hfilled.inside px py (Nat.zero_le _) (by omega) (Nat.zero_le _) (by omega)
  · rw [htimed]
    exact Panel.run_beginTimed_eq_none hv hr hk p

end Sys2Proof.Machine

/-! SUPPORT. The touch sampler (60_exceptions R231 to R235): a reading, a triple, a pass of the loop, and the states of
the touch pins. -/

namespace Sys2Proof.Machine

/-! ## A reading and a triple -/

/-- A reading listed for the converter is drawn as it is. -/
theorem draw_listed {s : State} {v : Reading} {rest : List Reading} (h : s.adcIn = v :: rest)
    (hv : v.toNat ≤ s.cfg.adcFullScale.max) : (draw s).1 = v := by
  simp only [draw, h, List.headD_cons, Nat.mod_eq_of_lt (Nat.lt_succ_of_le hv)]
  exact BitVec.eq_of_toNat_eq (by simp)

/-- Every reading is one the converter can give (60_exceptions R233). -/
theorem draw_le (s : State) : (draw s).1.toNat ≤ s.cfg.adcFullScale.max := by
  simp only [draw, BitVec.toNat_ofNat]
  exact (Nat.mod_le _ _).trans (Nat.lt_succ_iff.1 (Nat.mod_lt _ (Nat.succ_pos _)))

/-- A triple listed for the converter is measured as it is. -/
theorem measure_listed {s : State} {x : Triple} {rest : List Reading} (hx : x.inScale s.cfg)
    (h : s.adcIn = x.readings ++ rest) :
    measure s = (x, { s with
      adcIn := rest
      freeIndex := s.freeIndex + 5
      touchTrace := s.touchTrace ++ tripleEvents (phaseChoice s.freeIndex) x }) := by
  simp only [Triple.inScale, Triple.readings, List.forall_mem_cons] at hx
  obtain ⟨hxa, hxb, hya, hyb, hz, -⟩ := hx
  simp only [Triple.readings, List.cons_append, List.nil_append] at h
  have hread : (measure s).1 = x := by
    have exa := draw_listed h hxa
    have exb := draw_listed (s := (draw s).2) (v := x.xb) (by rw [draw_state, h]; rfl) hxb
    have eya := draw_listed (s := (draw (draw s).2).2) (v := x.ya) (by rw [draw_state, draw_state, h]; rfl) hya
    have eyb := draw_listed (s := (draw (draw (draw s).2).2).2) (v := x.yb)
      (by rw [draw_state, draw_state, draw_state, h]; rfl) hyb
    have ez := draw_listed (s := (draw (draw (draw (draw s).2).2).2).2) (v := x.z)
      (by rw [draw_state, draw_state, draw_state, draw_state, h]; rfl) hz
    simp only [measure, exa, exb, eya, eyb, ez]
  have hstate := measure_state s
  rw [measure_touchTrace, hread, h] at hstate
  exact Prod.ext hread hstate

theorem measure_inScale (s : State) : (measure s).1.inScale s.cfg := by
  simp only [Triple.inScale, Triple.readings, List.forall_mem_cons]
  exact ⟨draw_le s, draw_le (draw s).2, draw_le (draw (draw s).2).2, draw_le (draw (draw (draw s).2).2).2,
    draw_le (draw (draw (draw (draw s).2).2).2).2, List.forall_mem_nil _⟩

/-- The value returned lies between the samples whichever is free (log entry 9). -/
theorem between_pickBetween (a b : Reading) (free : Nat) : Between a b (pickBetween a b free) := by
  have ha := a.isLt
  have hb := b.isLt
  have hfree : free % (readingDiff a b + 1) ≤ readingDiff a b := Nat.lt_succ_iff.1 (Nat.mod_lt _ (Nat.succ_pos _))
  unfold readingDiff at hfree
  rw [Between, pickBetween, BitVec.toNat_ofNat, readingDiff, Nat.mod_eq_of_lt (by omega)]
  omega

theorem agrees_iff (x : Triple) (noise : Nat) :
    x.agrees noise = true ↔ readingDiff x.xa x.xb ≤ noise ∧ readingDiff x.ya x.yb ≤ noise := by
  simp [Triple.agrees]

/-- Disagreement on either axis. -/
theorem not_agrees_iff (x : Triple) (noise : Nat) :
    ¬ x.agrees noise = true ↔ noise < readingDiff x.xa x.xb ∨ noise < readingDiff x.ya x.yb := by
  rw [agrees_iff]
  omega

/-! ## A pass of the loop -/

theorem capReached_iff (c : Cfg) (n : Nat) : capReached c n = true ↔ ∃ m, c.touchRetryCap = some m ∧ m ≤ n := by
  simp [capReached, Option.any_eq_true]

theorem touchPass_of_cap {n : Nat} {s : State} (h : capReached s.cfg n = true) :
    touchPass n s = { s with sampling := none, responses := s.responses ++ [.unstable] } := if_pos h

theorem touchPass_of_agrees {n : Nat} {s : State} (h : ¬ capReached s.cfg n = true)
    (ha : (measure s).1.agrees s.cfg.touchNoise = true) :
    touchPass n s = touchReturn (measure s).1 (measure s).2 := (if_neg h).trans (if_pos ha)

theorem touchPass_of_disagrees {n : Nat} {s : State} (h : ¬ capReached s.cfg n = true)
    (ha : ¬ (measure s).1.agrees s.cfg.touchNoise = true) :
    touchPass n s = { (measure s).2 with sampling := some (n + 1) } := (if_neg h).trans (if_neg ha)

/-- A listed triple that agrees is returned. -/
theorem touchPass_returns {n : Nat} {s : State} {x : Triple} {rest : List Reading} (hx : x.inScale s.cfg)
    (h : s.adcIn = x.readings ++ rest) (ha : x.agrees s.cfg.touchNoise = true)
    (hcap : ¬ capReached s.cfg n = true) :
    touchPass n s = { s with
        rt0 := (touchPass n s).rt0, rt1 := (touchPass n s).rt1, rt2 := x.z, sampling := none, adcIn := rest
        freeIndex := (touchPass n s).freeIndex
        touchTrace := s.touchTrace ++ tripleEvents (phaseChoice s.freeIndex) x
        responses := s.responses ++ [.touch (touchPass n s).rt0 (touchPass n s).rt1 x.z] } ∧
      Between x.xa x.xb (touchPass n s).rt0 ∧ Between x.ya x.yb (touchPass n s).rt1 := by
  have hmeasure := measure_listed hx h
  rw [touchPass_of_agrees hcap (by rw [hmeasure]; exact ha), hmeasure]
  exact ⟨rfl, between_pickBetween .., between_pickBetween ..⟩

/-- A listed triple that disagrees is thrown away. -/
theorem touchPass_discards {n : Nat} {s : State} {x : Triple} {rest : List Reading} (hx : x.inScale s.cfg)
    (h : s.adcIn = x.readings ++ rest)
    (ha : s.cfg.touchNoise < readingDiff x.xa x.xb ∨ s.cfg.touchNoise < readingDiff x.ya x.yb)
    (hcap : ¬ capReached s.cfg n = true) :
    touchPass n s = { s with
      sampling := some (n + 1), adcIn := rest, freeIndex := (touchPass n s).freeIndex
      touchTrace := s.touchTrace ++ tripleEvents (phaseChoice s.freeIndex) x } := by
  have hmeasure := measure_listed hx h
  rw [touchPass_of_disagrees hcap (by rw [hmeasure]; exact (not_agrees_iff ..).2 ha), hmeasure]

/-- A pass that presents a touch measured an agreeing triple in it. -/
theorem touchPass_touch {n : Nat} {s : State} {r0 r1 r2 : Reading}
    (h : (touchPass n s).responses = s.responses ++ [.touch r0 r1 r2]) :
    ∃ (p : PhaseChoice) (x : Triple), (touchPass n s).touchTrace = s.touchTrace ++ tripleEvents p x ∧
      readingDiff x.xa x.xb ≤ s.cfg.touchNoise ∧ readingDiff x.ya x.yb ≤ s.cfg.touchNoise ∧
      Between x.xa x.xb r0 ∧ Between x.ya x.yb r1 ∧ r2 = x.z ∧ x.inScale s.cfg := by
  have hkeep : (measure s).2.responses = s.responses := by rw [measure_state]
  by_cases hcap : capReached s.cfg n = true
  · rw [touchPass_of_cap hcap] at h
    simp at h
  by_cases ha : (measure s).1.agrees s.cfg.touchNoise = true
  · rw [touchPass_of_agrees hcap ha] at h ⊢
    obtain ⟨hx, hy⟩ := (agrees_iff ..).1 ha
    simp only [touchReturn, State.respond, hkeep, List.append_cancel_left_eq, List.cons.injEq,
      Response.touch.injEq, and_true] at h
    obtain ⟨rfl, rfl, rfl⟩ := h
    exact ⟨_, _, measure_touchTrace s, hx, hy, between_pickBetween .., between_pickBetween .., rfl,
      measure_inScale s⟩
  · rw [touchPass_of_disagrees hcap ha] at h
    simp [hkeep] at h

/-- A step of a busy block with a sample in progress is a pass. -/
theorem step_sampling {s : State} {k : Nat} (hb : s.busy = true) (hs : s.sampling = some k) :
    step s = .next (touchPass k s).complete := by
  rw [step_busy hb, stepBusy, hs]

theorem exec_readtouch {s : State} (hl : s.life = .ready) (ht : s.cfg.hasTouch = true) :
    exec .readtouch s = .next (touchPass 0 s) := exec_readtouch_next.2 ⟨hl, ht, rfl⟩

/-- Below the cap a pass measures. -/
theorem not_capReached {c : Cfg} {k : Nat} (h : ∀ n, c.touchRetryCap = some n → k < n) :
    ¬ capReached c k = true := fun hcap => by
  obtain ⟨m, hm, hle⟩ := (capReached_iff c k).1 hcap
  exact absurd (h m hm) (Nat.not_lt.2 hle)

theorem not_capReached_zero {c : Cfg} (h : c.touchRetryCap ≠ some 0) : ¬ capReached c 0 = true :=
  not_capReached fun _ hn => Nat.pos_of_ne_zero fun h0 => h (h0 ▸ hn)

/-! ## The statements about passes -/

/-- Settles O31: both are one pass of the loop, on readings listed for the converter. -/
theorem readtouchReturnsAnAgreeingTriple : Obligations.ReadtouchReturnsAnAgreeingTriple := by
  intro s x rest hx h hdx hdy
  have ha := (agrees_iff x s.cfg.touchNoise).2 ⟨hdx, hdy⟩
  refine ⟨fun hl ht hcap => ?_, fun k hb hs hcap => ?_⟩
  · obtain ⟨hpass, hbx, hby⟩ := touchPass_returns hx h ha (not_capReached_zero hcap)
    exact ⟨_, phaseChoice s.freeIndex, exec_readtouch hl ht, hpass, hbx, hby⟩
  · obtain ⟨hpass, hbx, hby⟩ := touchPass_returns hx h ha (not_capReached hcap)
    exact ⟨_, phaseChoice s.freeIndex, step_sampling hb hs, congrArg State.complete hpass, hbx, hby⟩

/-- Settles O32: both are one pass of the loop, and the step leaves `BUSY` up for the sampler at work. -/
theorem disagreeingTriplesAreThrownAway : Obligations.DisagreeingTriplesAreThrownAway := by
  intro s x rest hx h ha
  refine ⟨fun hl ht hcap => ?_, fun k hb hs hcap => ?_⟩
  · have hpass := touchPass_discards hx h ha (not_capReached_zero hcap)
    refine ⟨_, phaseChoice s.freeIndex, exec_readtouch hl ht, hpass, fun u w ws hb hc hd haccept => ?_⟩
    have hbusy : (touchPass 0 s).busy = true := by
      rw [hpass, ← haccept]
      rfl
    have hcomplete : (touchPass 0 s).complete = touchPass 0 s := by
      rw [State.complete, show (touchPass 0 s).sampling.isSome = (touchPass 0 s).busy by rw [hbusy, hpass]; rfl]
    have hexec : exec .readtouch (u.accept w ws) = .next (touchPass 0 s) := by rw [haccept, exec_readtouch hl ht]
    exact ⟨hcomplete ▸ (step_command hb hc hd).1 _ hexec, hbusy⟩
  · have hpass := touchPass_discards hx h ha (not_capReached hcap)
    refine ⟨_, phaseChoice s.freeIndex, step_sampling hb hs, (congrArg State.complete hpass).trans ?_⟩
    simp only [State.complete, Option.isSome_some, hb]

/-- Settles O34, by induction on the triples: each step throws one away and leaves the sampler at work. -/
theorem readtouchMayNeverFinish : Obligations.ReadtouchMayNeverFinish := by
  intro s k xs rest
  induction xs generalizing s k with
  | nil => exact fun hb hs _ _ h => ⟨s, rfl, hb, hs, rfl, rfl, rfl, rfl, rfl, rfl, h⟩
  | cons x xs ih =>
    intro hb hs hcap hall h
    obtain ⟨⟨hx, hdis⟩, htail⟩ := List.forall_mem_cons.1 hall
    rw [List.flatMap_cons, List.append_assoc] at h
    have hpass := touchPass_discards hx h hdis (not_capReached (k := k) (by simp [hcap]))
    have hu : (touchPass k s).complete = State.complete _ := congrArg State.complete hpass
    have hcfg : (touchPass k s).complete.cfg = s.cfg := by rw [hu]; rfl
    obtain ⟨t, hrun, htb, hts, hresp, h0, h1, h2, hcmds, htrace, hadc⟩ :=
      ih (touchPass k s).complete (k + 1) (by rw [hu]; rfl) (by rw [hu]; rfl) (by rw [hcfg, hcap])
        (by rw [hcfg]; exact htail) (by rw [hu]; rfl)
    rw [hu] at hresp h0 h1 h2 hcmds htrace
    refine ⟨t, ?_, htb, ?_, hresp, h0, h1, h2, hcmds, htrace, hadc⟩
    · rw [List.length_cons, core_run_succ (step_sampling hb hs)]
      exact hrun
    · rw [hts, List.length_cons, Nat.add_assoc, Nat.add_comm 1]

/-! ## The touch pins -/

/-- The state of each electrode at its own place (60_exceptions R231). -/
theorem map_pinState_places {m : TouchPinMap} (h : m.places.Nodup) (e : Electrodes) :
    m.places.map (pinState m e) = [some e.xFirst, some e.xSecond, some e.yFirst, some e.ySecond] := by
  simp only [TouchPinMap.places, List.nodup_cons, List.mem_cons, List.not_mem_nil, not_or, or_false] at h
  obtain ⟨⟨h12, h13, h14⟩, ⟨h23, h24⟩, h34, -⟩ := h
  simp [TouchPinMap.places, pinState, Ne.symm h12, Ne.symm h13, Ne.symm h14, Ne.symm h23, Ne.symm h24, Ne.symm h34]

/-- A pin that is no electrode's place is not touched. -/
theorem pinState_of_notMem {m : TouchPinMap} {q : PinPos} (h : q ∉ m.places) (e : Electrodes) :
    pinState m e q = none := by
  simp only [TouchPinMap.places, List.mem_cons, List.not_mem_nil, not_or, or_false] at h
  obtain ⟨h1, h2, h3, h4⟩ := h
  rw [pinState, if_neg h1, if_neg h2, if_neg h3, if_neg h4]

/-- The electrodes' places are four, none of the board in use. -/
theorem touchPinsOk_nodup {c : Cfg} {m : TouchPinMap} (h : c.touchPinsOk m = true) :
    (m.places ++ c.pinmap.places c.resetMode).Nodup := by
  simp only [Cfg.touchPinsOk, Bool.and_eq_true, decide_eq_true_eq] at h
  obtain ⟨hbase, haddOn⟩ := h
  unfold Cfg.pinmap
  split
  · exact haddOn
  · exact hbase

/-- A step that presents a touch is a pass of the sampler, the first or a later one. -/
theorem step_touch {s t : State} {r0 r1 r2 : Reading} (h : step s = .next t)
    (hr : t.responses = s.responses ++ [.touch r0 r1 r2]) :
    ∃ n u, t = (touchPass n u).complete ∧ u.cfg = s.cfg ∧ u.responses = s.responses ∧
      u.touchTrace = s.touchTrace := by
  obtain ⟨-, rfl⟩ | ⟨-, -, rfl⟩ | ⟨w, rest, i, u, -, -, -, hexec, rfl⟩ := step_cases h
  · unfold stepBusy at hr ⊢
    split at hr
    · next n _ => exact ⟨n, s, rfl, rfl, rfl, rfl⟩
    · simp at hr
  · simp at hr
  · by_cases hi : i = .readtouch
    · subst hi
      obtain ⟨-, -, rfl⟩ := exec_readtouch_next.1 hexec
      exact ⟨0, s.accept w rest, rfl, rfl, rfl, rfl⟩
    · obtain ⟨rs, hrs, hno⟩ := (exec_settles hexec hi).responses
      have hsame : s.responses ++ rs = s.responses ++ [.touch r0 r1 r2] := hrs.symm.trans hr
      exact absurd (List.append_cancel_left hsame ▸ List.mem_singleton_self _) (hno r0 r1 r2)

/-- Settles O33: a touch presented comes from a pass, and the four electrodes have places of their own. -/
theorem samplerNeverReturnsADisagreement : Obligations.SamplerNeverReturnsADisagreement := by
  refine ⟨fun s t r0 r1 r2 h hr => ?_, fun c m hm => ⟨fun q hq e => ?_, fun b d => ?_⟩⟩
  · obtain ⟨n, u, rfl, hcfg, hresp, htouch⟩ := step_touch h hr
    rw [← hresp] at hr
    rw [← hcfg, ← htouch]
    exact touchPass_touch hr
  · obtain ⟨-, -, hdisjoint⟩ := List.nodup_append.1 (touchPinsOk_nodup hm)
    exact pinState_of_notMem (fun hmem => hdisjoint q hmem q hq rfl) e
  · have hplaces (e : Electrodes) := map_pinState_places (List.nodup_append.1 (touchPinsOk_nodup hm)).1 e
    simp only [hplaces]
    cases b <;> cases d <;> exact ⟨rfl, rfl, rfl, rfl⟩

/-! ## The cap -/

/-- Settles O35: at the cap a pass measures nothing. -/
theorem cappedSamplerGivesUnstable : Obligations.CappedSamplerGivesUnstable := by
  refine ⟨fun s n hb hs hcap => ?_, fun s hl ht hcap => ?_⟩
  · rw [step_sampling hb hs, touchPass_of_cap ((capReached_iff ..).2 ⟨n, hcap, le_refl n⟩)]
    rfl
  · rw [exec_readtouch hl ht, touchPass_of_cap ((capReached_iff ..).2 ⟨0, hcap, le_refl 0⟩)]

end Sys2Proof.Machine
